-- ==== Sys2Proof/Word.lean ====
section
/-! DEFINITION. The widths of spec/00_scope.md R7 and R11: octets, register addresses, payloads, and the two objects that
are encoded (the 41-bit command word of R87 and the five octets of a wire frame, R80). -/

namespace Sys2Proof

/-- An octet (OCTET_BITS = 8, R7). -/
abbrev Octet := BitVec 8

/-- A register address (ADDR_BITS = 7, R7): an address above 127 cannot be written down (R83). -/
abbrev Address := BitVec 7

/-- A payload, value or selector (PAYLOAD_BITS = 32, R7, R11). -/
abbrev Payload := BitVec 32

/-- The command word `cmd_word[40:0]` of the command port (R40, R87). -/
abbrev CommandWord := BitVec 41

/-- An octet vector of length exactly 5 (R12), `b0` the first octet on the wire (R52). -/
structure Bytes5 where
  b0 : Octet
  b1 : Octet
  b2 : Octet
  b3 : Octet
  b4 : Octet
  deriving DecidableEq, Repr

end Sys2Proof
end

