-- ==== Sys2Proof/Config.lean ====
section
/-! DEFINITION. What is fixed for the machine: the literals of spec/00_scope.md R7 and the parameters R8 leaves open. -/

namespace Sys2Proof

/-- FRAME_OCTETS (R7): "5 octets per direction per exchange". -/
abbrev frameOctets : Nat := 5

/-- DIR_MASK (R7): the high bit of octet 0. -/
abbrev dirMask : Octet := 0x80#8

/-- ADDR_MASK (R7): the low seven bits of octet 0. -/
abbrev addrMask : Octet := 0x7F#8

/-- The value of the type parameter TKind (R8, R182), the transport's opaque failure classification, that the host's `exec`
and `step` run at, because they take no type argument. Everything below them takes the type as an argument `K`. It is a bare
tag with no operation but equality. DESIGN CHOICE (log 3), safe: no definition reads the tag. -/
structure TKind where
  tag : Nat
  deriving DecidableEq, Repr

/-- The open parameters of R8. No event writes them (R31). They may have any values, equal addresses included (R9). -/
structure Params where
  /-- P_CHIPINFO_ADDR: the chip-info selector register. -/
  chipInfoAddr : Address
  /-- P_CHIPINFO_DATA: the chip-info data register. -/
  chipInfoData : Address
  /-- P_STRICT_REPLY_CHECK: the opt-in reply-address check (R144). -/
  strictReplyCheck : Bool
  /-- P_RX_SHORT_ADMITTED: whether the transport may report fewer than 5 octets (R61). -/
  rxShortAdmitted : Bool
  deriving DecidableEq, Repr

/-- The column "default used by 95_test_vectors.md" of R8. PRESUMED (log 1), unsafe where a claim rests on the two
addresses: R8 marks them as general knowledge. -/
def Params.vectorDefaults : Params :=
  { chipInfoAddr := 0x01#7, chipInfoData := 0x00#7, strictReplyCheck := false, rxShortAdmitted := true }

end Sys2Proof
end

