-- ==== Sys2Proof/Syntax.lean ====
section
/-! DEFINITION. Frames, operation codes, the instructions of spec/opcode_table.json, and the commands as the assembler
notation of spec/30_encoding.md R94 writes them. -/

namespace Sys2Proof

/-- The direction of a frame (R13, R82). -/
inductive Dir where
  | read
  | write
  deriving DecidableEq, Repr

/-- A logical frame (R13). Its address field is seven bits wide (R83). -/
structure Frame where
  direction : Dir
  address   : Address
  payload   : Payload
  deriving DecidableEq, Repr

/-- The three operations (R3, R88). The fourth code of the 2-bit field is never latched (R23). -/
inductive Op where
  | rd
  | wr
  | chipinfo
  deriving DecidableEq, Repr

/-- One constructor per row of spec/opcode_table.json (R97). The command words keep the fields R88 calls ignored,
because ACCEPT latches them into `cmd` (R141). The wire frames are what the transport hands back (R118, R119). -/
inductive Instr where
  /-- RD (R147). `data` is the ignored field. -/
  | rd (addr : Address) (data : Payload)
  /-- WR (R149). -/
  | wr (addr : Address) (data : Payload)
  /-- CHIPINFO (R152). `addr` is the ignored field. -/
  | chipinfo (addr : Address) (selector : Payload)
  /-- FRAME_RD (R118): a wire frame with direction bit 0. -/
  | frameRd (address : Address) (payload : Payload)
  /-- FRAME_WR (R119): a wire frame with direction bit 1. -/
  | frameWr (address : Address) (payload : Payload)
  deriving DecidableEq, Repr

/-- What a line of assembler notation says before it is checked (R94): its numbers may be too large for their fields. -/
inductive Source where
  | rd (addr : Nat)
  | wr (addr value : Nat)
  | chipinfo (selector : Nat)
  | octets (bs : List Nat)
  deriving DecidableEq, Repr

end Sys2Proof
end

