-- ==== Sys2Proof/WellFormed.lean ====
section
/-! DEFINITION. Which words and which source lines spell something: the reserved operation code is refused
(spec/30_encoding.md R89), and a number too wide for its field is rejected, never masked (R93).
An `Instr` is well formed by its types: its address is seven bits wide and its payload 32 (R83, R11). -/

namespace Sys2Proof

/-- A command word spells a command unless `op = 0b11` (R89). -/
def CommandWord.wellFormed (w : CommandWord) : Bool := w.extractLsb' 39 2 != 0b11#2

/-- `<addr>` is "a number from 0 to 127" (R94). -/
def addrInRange (n : Nat) : Bool := n < 2 ^ 7

/-- `<value>` and `<selector>` are "numbers from 0 to 2^32−1" (R94). -/
def valueInRange (n : Nat) : Bool := n < 2 ^ 32

/-- A source line is well formed when every number fits its field (R93, R94), and a frame has exactly five octets (R80). -/
def Source.wellFormed : Source → Bool
  | .rd a       => addrInRange a
  | .wr a v     => addrInRange a && valueInRange v
  | .chipinfo s => valueInRange s
  | .octets bs  => bs.length == frameOctets && bs.all (· < 2 ^ 8)

/-- Every instruction is well formed: the types of its operands leave nothing to check (R83, R85). -/
def Instr.wellFormed : Instr → Bool
  | .rd _ _       => true
  | .wr _ _       => true
  | .chipinfo _ _ => true
  | .frameRd _ _  => true
  | .frameWr _ _  => true

end Sys2Proof
end

