-- ==== Sys2Proof/Decode.lean ====
section
/-! DEFINITION. The frame codec ENCODE and DECODE (spec/40_codec.md), the command word's fields (spec/30_encoding.md R87,
R88), the decoder and the encoder of the instructions, and the table words of spec/opcode_table.json. -/

namespace Sys2Proof

/-! ## Octet vectors -/

/-- The octets in transmission order (R12, R52). -/
def Bytes5.toList (bs : Bytes5) : List Octet := [bs.b0, bs.b1, bs.b2, bs.b3, bs.b4]

/-- `F = buf[0] ++ buf[1] ++ buf[2] ++ buf[3] ++ buf[4]` (R81). -/
def Bytes5.word (bs : Bytes5) : BitVec 40 := bs.b0 ++ bs.b1 ++ bs.b2 ++ bs.b3 ++ bs.b4

/-- Octet k is `F[39−8k : 32−8k]` (R81). -/
def Bytes5.ofWord (f : BitVec 40) : Bytes5 :=
  { b0 := f.extractLsb' 32 8, b1 := f.extractLsb' 24 8, b2 := f.extractLsb' 16 8,
    b3 := f.extractLsb' 8 8, b4 := f.extractLsb' 0 8 }

/-! ## The codec -/

/-- The direction bit of octet 0: 1 is write (R82). -/
def Dir.mask : Dir → Octet
  | .read  => 0x00#8
  | .write => dirMask

/-- ENCODE (R110). -/
def encodeFrame (f : Frame) : Bytes5 :=
  { b0 := f.direction.mask ||| (f.address.setWidth 8 &&& addrMask)
    b1 := f.payload.extractLsb' 24 8
    b2 := f.payload.extractLsb' 16 8
    b3 := f.payload.extractLsb' 8 8
    b4 := f.payload.extractLsb' 0 8 }

/-- What DECODE answers (R117): "a Frame or ParseError", and nothing else. -/
inductive Decoded where
  | frame (f : Frame)
  /-- Fewer than 5 octets (R115). -/
  | parseError
  deriving DecidableEq, Repr

/-- The direction of octet 0 (R114). -/
def octetDir (b0 : Octet) : Dir := if b0 &&& dirMask ≠ 0#8 then .write else .read

/-- The address of octet 0 (R114). -/
def octetAddress (b0 : Octet) : Address := (b0 &&& addrMask).setWidth 7

/-- The frame that five octets are (R114, R116). -/
def frameOfOctets (b0 b1 b2 b3 b4 : Octet) : Frame :=
  { direction := octetDir b0, address := octetAddress b0, payload := b1 ++ b2 ++ b3 ++ b4 }

/-- DECODE (R114), for an octet vector of any length: only the first five octets are consulted (R115). -/
def decodeFrame : List Octet → Decoded
  | b0 :: b1 :: b2 :: b3 :: b4 :: _ => .frame (frameOfOctets b0 b1 b2 b3 b4)
  | _ => .parseError

/-- DECODE of exactly five octets, which cannot fail (R116). -/
def Bytes5.frame (bs : Bytes5) : Frame := frameOfOctets bs.b0 bs.b1 bs.b2 bs.b3 bs.b4

/-- The row of the table a frame belongs to, chosen by `F[39]` (R84). -/
def Frame.instr (f : Frame) : Instr :=
  match f.direction with
  | .read  => .frameRd f.address f.payload
  | .write => .frameWr f.address f.payload

/-! ## The command word -/

/-- `op`, `cmd_word[40:39]` (R87). -/
def CommandWord.op (w : CommandWord) : BitVec 2 := w.extractLsb' 39 2

/-- `addr`, `cmd_word[38:32]` (R87). -/
def CommandWord.addr (w : CommandWord) : Address := w.extractLsb' 32 7

/-- `data`, `cmd_word[31:0]` (R87). -/
def CommandWord.data (w : CommandWord) : Payload := w.extractLsb' 0 32

/-- The code of an operation (R88). -/
def Op.code : Op → BitVec 2
  | .rd       => 0b00#2
  | .wr       => 0b01#2
  | .chipinfo => 0b10#2

/-- A command word assembled from its fields (R87). -/
def commandWord (op : Op) (addr : Address) (data : Payload) : CommandWord := op.code ++ addr ++ data

/-! ## Instructions -/

/-- What is decoded: one of the two objects of R97. -/
inductive Encoded where
  /-- A word on the command port. -/
  | command (w : CommandWord)
  /-- The octets of a wire frame. -/
  | wire (bs : Bytes5)
  deriving DecidableEq, Repr

/-- Why something does not decode, by name. -/
inductive DecodeError where
  /-- `op = 0b11` (R89). -/
  | reservedOp
  /-- Fewer than five octets (R115). -/
  | shortFrame
  deriving DecidableEq, Repr

/-- Decodes a command word (R88, R89). -/
def decodeCommand (w : CommandWord) : Except DecodeError Instr :=
  if w.op = 0b00#2 then .ok (.rd w.addr w.data)
  else if w.op = 0b01#2 then .ok (.wr w.addr w.data)
  else if w.op = 0b10#2 then .ok (.chipinfo w.addr w.data)
  else .error .reservedOp

/-- Decodes octets of any number as a wire frame (R85, R86). -/
def decodeOctets (bs : List Octet) : Except DecodeError Instr :=
  match decodeFrame bs with
  | .frame f    => .ok f.instr
  | .parseError => .error .shortFrame

/-- The decoder of both objects. -/
def decode : Encoded → Except DecodeError Instr
  | .command w => decodeCommand w
  | .wire bs   => decodeOctets bs.toList

/-- The encoder, from the tables of R88 and R84. -/
def encode : Instr → Encoded
  | .rd a d       => .command (commandWord .rd a d)
  | .wr a d       => .command (commandWord .wr a d)
  | .chipinfo a s => .command (commandWord .chipinfo a s)
  | .frameRd a p  => .wire (encodeFrame { direction := .read, address := a, payload := p })
  | .frameWr a p  => .wire (encodeFrame { direction := .write, address := a, payload := p })

/-! ## The words of spec/opcode_table.json -/

/-- How many bits the table gives the row: 41 for a command word and 40 for a wire frame (R97). -/
def Encoded.bits : Encoded → Nat
  | .command _ => 41
  | .wire _    => 40

/-- The row's word as the table numbers its bits. -/
def Encoded.tableWord : Encoded → Nat
  | .command w => w.toNat
  | .wire bs   => bs.word.toNat

/-- The object a table word is. The table's command words have 41 bits and its frames 40, so the number of bits, in whole
bytes, tells them apart. A number too wide for its object is none of its words and is not masked (R93). DEDUCED (log 9),
safe. -/
def tableObject (nbits w : Nat) : Option Encoded :=
  if nbits ≤ 40 then
    if w < 2 ^ 40 then some (.wire (Bytes5.ofWord (BitVec.ofNat 40 w))) else none
  else
    if w < 2 ^ 41 then some (.command (BitVec.ofNat 41 w)) else none

/-- The instruction the decoder reads from a table word. -/
def decodeTableWord (nbits w : Nat) : Option Instr :=
  match tableObject nbits w with
  | some e => (decode e).toOption
  | none   => none

/-! ## The transport port's outcome -/

/-- The received length `x_rx_len[2:0]` as a number of octets, `n ∈ {0,…,5}` (R61): 6 and 7 are no length. -/
def rxLength (len : BitVec 3) : Option (Fin 6) :=
  if h : len.toNat < 6 then some ⟨len.toNat, h⟩ else none

end Sys2Proof
end

