-- ==== Sys2Proof/Machine/State.lean ====
section
/-! DEFINITION. The state record of spec/10_state.md R20, the exchange history of R37, what the agents offer on the input
ports of R40, and the reasons a step can stop. All of it is plain data. `K` is the type parameter TKind of R8, and
`State` is the state at the host's type (log 3). -/

namespace Sys2Proof.Machine

/-- The sequencer's control state (R22). -/
inductive Phase where
  /-- 0b00: no command in progress. -/
  | idle
  /-- 0b01: the first (or only) exchange is outstanding. -/
  | x1
  /-- 0b10: the second exchange of a CHIPINFO is outstanding. -/
  | x2
  /-- 0b11: the response is held until the caller consumes it. -/
  | resp
  deriving DecidableEq, Repr

/-- The outcome codes of `rsp_status` (R26, R181). -/
inductive Status where
  | ok
  | commErr
  | parseErr
  | unexpectedReply
  deriving DecidableEq, Repr

/-- The latched command (R20, R23). -/
structure Command where
  op   : Op
  addr : Address
  data : Payload
  deriving DecidableEq, Repr

/-- The outcome of an exchange (R61): a draw, which the block does not constrain. -/
inductive Answer (K : Type) where
  /-- The received octets and how many of them were received, 0 to 5. -/
  | ok (rx : Bytes5) (n : Fin 6)
  /-- The transport's failure classification. -/
  | fail (k : K)
  deriving DecidableEq, Repr

/-- One record of the exchange history (R37). -/
inductive Record (K : Type) where
  | issue (tx : Bytes5)
  | done (o : Answer K)
  | reset
  deriving DecidableEq, Repr

/-- One of the four events (R36), as an agent offers it on the block's input ports (R40). -/
inductive Event (K : Type) where
  /-- The caller presents `cmd_word`. -/
  | accept (w : CommandWord)
  /-- The transport answers the outstanding exchange. -/
  | xdone (o : Answer K)
  /-- The caller acknowledges the response. -/
  | consume
  /-- The environment asserts `rst`. -/
  | reset
  deriving DecidableEq, Repr

/-- The triple the caller takes "as they stand" at CONSUME (R156, R158). `none` is UNSPEC. -/
structure Response (K : Type) where
  status : Option Status
  data   : Option Payload
  kind   : Option K
  deriving DecidableEq, Repr

/-- The fields that can be UNSPEC (R21). -/
inductive FieldName where
  | cmd
  | buf
  | rspStatus
  | rspData
  | rspKind
  deriving DecidableEq, Repr

/-- The machine, for a TKind. `none` in `cmd`, `buf`, `rspStatus`, `rspData` and `rspKind` is the spec's UNSPEC, which R39
gives as their reset value: the field "holds no value" and a read of it faults (R21). -/
structure State.Of (K : Type) where
  /-- The parameters (R8, R31), constant along every run. DESIGN CHOICE (log 1). -/
  par       : Params
  /-- `phase` (R22). -/
  phase     : Phase
  /-- `cmd.op`, `cmd.addr` and `cmd.data` (R23), which are written and made UNSPEC together. -/
  cmd       : Option Command
  /-- `buf` (R24). -/
  buf       : Option Bytes5
  /-- `rsp_valid` (R25). -/
  rspValid  : Bool
  /-- `rsp_status` (R26). -/
  rspStatus : Option Status
  /-- `rsp_data` (R26, R151). -/
  rspData   : Option Payload
  /-- `rsp_kind` (R26, R182). -/
  rspKind   : Option K
  /-- `hist` (R37), oldest first: observation, not hardware. -/
  hist      : List (Record K)
  /-- What the caller, the transport and the environment still offer, oldest first. DESIGN CHOICE (log 4). -/
  offers    : List (Event K)
  /-- The responses the caller has taken, oldest first (R158): observation, not hardware. DESIGN CHOICE (log 12). -/
  taken     : List (Response K)
  deriving DecidableEq, Repr

/-- The machine at the host's TKind (log 3). -/
abbrev State : Type := State.Of TKind

/-- Why the machine stops. None of these is an effect of an instruction in a state that satisfies R163. -/
inductive Fault where
  /-- A read of a field that holds no value, or that R21 does not let the caller read. Raised by the reads of Ports.lean,
  and by XDONE where `cmd` is UNSPEC, which R163 rules out. Safe: the spec says a model must fault. -/
  | readUnspec (f : FieldName)
  /-- No offered event is enabled: in X1 or X2 the hang of R226 (93 U10, "stuck"), in IDLE or RESP a caller that offers
  nothing more. Raised by `step`. Safe: nothing is claimed beyond it. -/
  | noEventEnabled (p : Phase)
  /-- XDONE with a command and phase that have no row in R142: RD or WR in X2, which R163 rules out. Raised by the
  completion of an exchange. Safe: the spec gives no effect and the state is unreachable. -/
  | noCompletionRow (op : Op) (p : Phase)
  deriving DecidableEq, Repr

/-- What the model gives no meaning. -/
inductive Refusal where
  /-- An instruction that has no meaning yet. Raised by `exec` alone. Safe. -/
  | notModelled (mnemonic : String)
  /-- A command word with `op = 0b11` (R89, V8): it spells no command. Raised by `step`. Safe. -/
  | reservedCommand (w : CommandWord)
  /-- An outcome with fewer than 5 octets when P_RX_SHORT_ADMITTED is false: no move of the transport (R61, P5).
  Raised by XDONE. Safe. -/
  | shortNotAdmitted (n : Fin 6)
  deriving DecidableEq, Repr

/-- The launch state for given parameters (R213), at a TKind: the values of R39, `hist = []`, and nothing offered yet. -/
def State.Of.launch (K : Type) (p : Params) : State.Of K :=
  { par := p, phase := .idle, cmd := none, buf := none, rspValid := false, rspStatus := none, rspData := none,
    rspKind := none, hist := [], offers := [], taken := [] }

/-- The launch state at the host's TKind. -/
abbrev State.launch (p : Params) : State := State.Of.launch TKind p

/-- The machine right after reset (R39, R213), with the parameters of R8's default column (log 1). -/
def State.reset : State := State.launch Params.vectorDefaults

end Sys2Proof.Machine
end

