-- ==== Sys2Proof/Machine/Flags.lean ====
section
/-! DEFINITION. The block has no flags: `rsp_status` is its only status output (spec/10_state.md R29). Here are the codes of
`phase` and `rsp_status`, and the status and information of each error (spec/60_exceptions.md R180, R181). -/

namespace Sys2Proof.Machine

variable {K : Type}

/-- The 2-bit encoding of `phase` (R22). -/
def Phase.code : Phase → BitVec 2
  | .idle => 0b00#2
  | .x1   => 0b01#2
  | .x2   => 0b10#2
  | .resp => 0b11#2

/-- The 2-bit encoding of `rsp_status` (R181). -/
def Status.code : Status → BitVec 2
  | .ok              => 0b00#2
  | .commErr         => 0b01#2
  | .parseErr        => 0b10#2
  | .unexpectedReply => 0b11#2

/-- DriverError (R180): one variant per failure kind, one of which carries the transport's classification. -/
inductive DriverError (K : Type) where
  | communication (k : K)
  | parse
  | unexpectedReply
  deriving DecidableEq, Repr

/-- The status code an error puts into `rsp_status` (R181). -/
def DriverError.status : DriverError K → Status
  | .communication _ => .commErr
  | .parse           => .parseErr
  | .unexpectedReply => .unexpectedReply

/-- The information an error puts into `rsp_kind` (R181): UNSPEC but for COMM_ERR. -/
def DriverError.info : DriverError K → Option K
  | .communication k => some k
  | .parse           => none
  | .unexpectedReply => none

end Sys2Proof.Machine
end

