-- ==== Sys2Proof/Machine/Operands.lean ====
section
/-! DEFINITION. How operands become request frames and which address a reply is held against (spec/30_encoding.md R90,
spec/41_transactions.md R142). The parameters are arguments (R31). -/

namespace Sys2Proof.Machine

variable {K : Type}

/-- The request frame of a command's first exchange (R90, R141). -/
def firstRequest (p : Params) (op : Op) (addr : Address) (data : Payload) : Frame :=
  match op with
  | .rd       => { direction := .read, address := addr, payload := 0#32 }
  | .wr       => { direction := .write, address := addr, payload := data }
  | .chipinfo => { direction := .write, address := p.chipInfoAddr, payload := data }

/-- The request frame of CHIPINFO's second exchange (R90, R153). -/
def secondRequest (p : Params) : Frame := { direction := .read, address := p.chipInfoData, payload := 0#32 }

/-- `ReqAddr(st)` (R142): the address of the request that is outstanding. -/
def reqAddr (p : Params) (c : Command) (ph : Phase) : Address :=
  match c.op with
  | .rd       => c.addr
  | .wr       => c.addr
  | .chipinfo => if ph = .x1 then p.chipInfoAddr else p.chipInfoData

/-- The strict check's verdict on a decoded reply (R144): it compares the address only, and only when it is on. -/
def replyMismatch (p : Params) (c : Command) (ph : Phase) (r : Frame) : Bool :=
  p.strictReplyCheck && decide (r.address ≠ reqAddr p c ph)

/-- The received octets, `rx[0 .. n-1]` (R142). -/
def receivedOctets (rx : Bytes5) (n : Fin 6) : List Octet := rx.toList.take n.val

/-- Whether an outcome is a move of the transport (R61): `n < 5` only where P_RX_SHORT_ADMITTED is true. -/
def Answer.admitted (p : Params) : Answer K → Bool
  | .ok _ n => n.val == 5 || p.rxShortAdmitted
  | .fail _ => true

end Sys2Proof.Machine
end

