-- ==== Sys2Proof/Machine/Ops.lean ====
section
/-! DEFINITION. The named operations on the state: the field updates, `Exchange`, `respond` and `raise` (spec/00_scope.md
R14, spec/41_transactions.md R150), CONSUME and RESET, and which offered event comes next (spec/10_state.md R36). -/

namespace Sys2Proof.Machine

variable {K : Type}

/-! ## Field updates -/

def State.Of.setPhase (p : Phase) (s : State.Of K) : State.Of K := { s with phase := p }

def State.Of.setCmd (c : Option Command) (s : State.Of K) : State.Of K := { s with cmd := c }

def State.Of.setBuf (b : Option Bytes5) (s : State.Of K) : State.Of K := { s with buf := b }

/-- Writes all four response registers. -/
def State.Of.setRsp (valid : Bool) (status : Option Status) (data : Option Payload) (kind : Option K)
    (s : State.Of K) : State.Of K :=
  { s with rspValid := valid, rspStatus := status, rspData := data, rspKind := kind }

/-- Appends to the exchange history (R37). -/
def State.Of.log (r : Record K) (s : State.Of K) : State.Of K := { s with hist := s.hist ++ [r] }

/-- Replaces what the agents still offer. -/
def State.Of.setOffers (es : List (Event K)) (s : State.Of K) : State.Of K := { s with offers := es }

/-- Appends to the caller's record of responses (R158). -/
def State.Of.take (r : Response K) (s : State.Of K) : State.Of K := { s with taken := s.taken ++ [r] }

/-- The agent keeps its offer (R40: "The caller holds it until `cmd_ready = 1`"): the offer stays, as the oldest one. For
an answer of the transport this is a DESIGN CHOICE (log 6), safe. -/
def State.Of.hold (e : Event K) (s : State.Of K) : State.Of K := s.setOffers (e :: s.offers)

/-! ## Exchanges and responses -/

/-- An exchange is outstanding exactly while `phase ∈ {X1, X2}` (R35, R66). -/
def Phase.outstanding : Phase → Bool
  | .idle => false
  | .x1   => true
  | .x2   => true
  | .resp => false

/-- `st.buf <- ENCODE(f); Exchange(st.buf)` (R60, R140): one exchange of exactly five octets (R56). -/
def State.Of.issue (f : Frame) (s : State.Of K) : State.Of K :=
  (s.setBuf (some (encodeFrame f))).log (.issue (encodeFrame f))

/-- `respond(s, v, k)` (R150). -/
def State.Of.respond (status : Status) (data : Payload) (kind : Option K) (s : State.Of K) : State.Of K :=
  (s.setRsp true (some status) (some data) kind).setPhase .resp

/-- `raise E(info)` (R14, R185): "`respond(E, 0, info)` and the end of the command". Nothing is saved and no vector is
taken. This is the one operation every error goes through. -/
def State.Of.raise (e : DriverError K) (s : State.Of K) : State.Of K := s.respond e.status 0x00000000#32 e.info

/-- Every register but `phase` is UNSPEC again and `rsp_valid` is 0: what CONSUME (R156) and RESET (R210) share. -/
def State.Of.clear (s : State.Of K) : State.Of K := (((s.setRsp false none none none).setCmd none).setBuf none).setPhase .idle

/-- The response as it stands (R156, R158). -/
def State.Of.response (s : State.Of K) : Response K := { status := s.rspStatus, data := s.rspData, kind := s.rspKind }

/-- CONSUME (R156): the caller takes the response, and the block returns to IDLE. There is no other return from an error,
and it restores nothing (R186). -/
def State.Of.consume (s : State.Of K) : State.Of K := (s.take s.response).clear

/-- RESET (R210). An outstanding exchange is abandoned (R211) and a held response discarded (R212). -/
def State.Of.rst (s : State.Of K) : State.Of K := s.clear.log .reset

/-! ## Which event comes next -/

/-- The column "enabled when" of R36, but for one word: R36 says that a command word with `op = 0b11` enables no event, and
here it counts as enabled in IDLE, so that the step meets it there and refuses it (R89, V8). DEDUCED (log 23), safe. -/
def Event.enabledIn (p : Phase) : Event K → Bool
  | .accept _ => p == .idle
  | .xdone _  => p.outstanding
  | .consume  => p == .resp
  | .reset    => true

/-- The oldest enabled event and what stays offered without it. An offer that is not enabled waits, and the order of the
others is kept (R40, R67). DESIGN CHOICE (log 4), safe. -/
def nextOffer (p : Phase) : List (Event K) → Option (Event K × List (Event K))
  | [] => none
  | e :: es =>
    match e.enabledIn p with
    | true => some (e, es)
    | false =>
      match nextOffer p es with
      | some (f, fs) => some (f, e :: fs)
      | none => none

end Sys2Proof.Machine
end

