-- ==== Sys2Proof/Machine/Transfer.lean ====
section
/-! DEFINITION. TRANSFER (spec/41_transactions.md R140) as the block performs it: the issue half in ACCEPT (R141), the
completion half in XDONE (R142), with one definition for each row of XDONE's case. -/

namespace Sys2Proof.Machine

variable {K : Type}

/-! ## The issue half -/

/-- ACCEPT (R141): latch the command, build the request frame, issue the exchange, go to X1. It writes no response
register. -/
def State.Of.accept (op : Op) (addr : Address) (data : Payload) (s : State.Of K) : State.Of K :=
  ((s.setCmd (some { op := op, addr := addr, data := data })).issue (firstRequest s.par op addr data)).setPhase .x1

/-- A command on the command port. While `cmd_ready = 0` it is not taken and the caller holds it (R40, R218, V1). -/
def presentCommand (op : Op) (addr : Address) (data : Payload) (s : State.Of K) : Host.Outcome (State.Of K) Fault Refusal :=
  if s.phase = .idle then .next (s.accept op addr data)
  else .next (s.hold (.accept (commandWord op addr data)))

/-! ## The completion half -/

/-- `(RD, X1)` (R147): the result is the reply's payload. -/
def completeRd (r : Frame) (s : State.Of K) : State.Of K := s.respond .ok r.payload none

/-- `(WR, X1)` (R149): the reply's payload is discarded. -/
def completeWr (s : State.Of K) : State.Of K := s.respond .ok 0x00000000#32 none

/-- `(CHIPINFO, X1)` (R153): the same event issues exchange 2. -/
def continueChipinfo (s : State.Of K) : State.Of K := (s.issue (secondRequest s.par)).setPhase .x2

/-- `(CHIPINFO, X2)` (R155): the result is the second reply's payload. -/
def completeChipinfo (r : Frame) (s : State.Of K) : State.Of K := s.respond .ok r.payload none

/-- The last case of XDONE (R142). RD and WR have no row in X2; R163 rules the case out. DEDUCED (log 11), safe. -/
def complete (c : Command) (r : Frame) (s : State.Of K) : Host.Outcome (State.Of K) Fault Refusal :=
  match c.op, s.phase with
  | .rd, .x1       => .next (completeRd r s)
  | .wr, .x1       => .next (completeWr s)
  | .chipinfo, .x1 => .next (continueChipinfo s)
  | .chipinfo, .x2 => .next (completeChipinfo r s)
  | op, p          => .fault (.noCompletionRow op p)

/-- A decoded reply: the strict check first (R144), then the command's own completion. The direction of the reply is read
nowhere. `cmd` is read here, and a read of it faults while it is UNSPEC (R21). -/
def onReply (r : Frame) (s : State.Of K) : Host.Outcome (State.Of K) Fault Refusal :=
  match s.cmd with
  | none   => .fault (.readUnspec .cmd)
  | some c =>
    match replyMismatch s.par c s.phase r with
    | true  => .next (s.raise .unexpectedReply)
    | false => complete c r s

/-- `Ok(rx, n)`: decode what was received (R142); a short receive is a ParseError (R143). -/
def onReceived (rx : Bytes5) (n : Fin 6) (s : State.Of K) : Host.Outcome (State.Of K) Fault Refusal :=
  match decodeFrame (receivedOctets rx n) with
  | .parseError => .next (s.raise .parse)
  | .frame r    => onReply r s

/-- XDONE (R142). The order of the branches is the priority of R187. -/
def xdone (o : Answer K) (s : State.Of K) : Host.Outcome (State.Of K) Fault Refusal :=
  match o with
  | .fail k  => .next (((s.log (.done (.fail k))).setBuf none).raise (.communication k))
  | .ok rx n => onReceived rx n ((s.log (.done (.ok rx n))).setBuf (some rx))

/-- An answer of the transport. With no exchange outstanding XDONE is not enabled (R36, V2) and the answer waits (log 6);
an outcome that is no move of the transport is refused (R61, log 10). -/
def transportAnswer (o : Answer K) (s : State.Of K) : Host.Outcome (State.Of K) Fault Refusal :=
  match s.phase.outstanding with
  | false => .next (s.hold (.xdone o))
  | true  =>
    match o, o.admitted s.par with
    | .ok _ n, false => .refused (.shortNotAdmitted n)
    | _, _           => xdone o s

end Sys2Proof.Machine
end

