-- ==== Sys2Proof/Machine/Commands.lean ====
section
/-! DEFINITION. The three commands (spec/41_transactions.md section 2). Each is ACCEPT with its operation code; its
completion is its row of XDONE in Transfer.lean. -/

namespace Sys2Proof.Machine

variable {K : Type}

/-- RD addr (R147, R148). -/
def execRd (addr : Address) (data : Payload) (s : State.Of K) : Host.Outcome (State.Of K) Fault Refusal :=
  presentCommand .rd addr data s

/-- WR addr, value (R149). -/
def execWr (addr : Address) (data : Payload) (s : State.Of K) : Host.Outcome (State.Of K) Fault Refusal :=
  presentCommand .wr addr data s

/-- CHIPINFO selector (R152). -/
def execChipinfo (addr : Address) (selector : Payload) (s : State.Of K) : Host.Outcome (State.Of K) Fault Refusal :=
  presentCommand .chipinfo addr selector s

end Sys2Proof.Machine
end

