-- ==== Sys2Proof/Machine/Frames.lean ====
section
/-! DEFINITION. The two wire frames (spec/40_codec.md R118, R119), met as the block meets them: a frame is what the
transport hands back for the outstanding exchange, XDONE(Ok(rx, 5)) with rx the frame's octets. DEDUCED (log 7). -/

namespace Sys2Proof.Machine

variable {K : Type}

/-- FRAME_RD (R118): a reply whose direction bit is 0. -/
def execFrameRd (address : Address) (payload : Payload) (s : State.Of K) : Host.Outcome (State.Of K) Fault Refusal :=
  transportAnswer (.ok (encodeFrame { direction := .read, address := address, payload := payload }) 5) s

/-- FRAME_WR (R119): a reply whose direction bit is 1. -/
def execFrameWr (address : Address) (payload : Payload) (s : State.Of K) : Host.Outcome (State.Of K) Fault Refusal :=
  transportAnswer (.ok (encodeFrame { direction := .write, address := address, payload := payload }) 5) s

end Sys2Proof.Machine
end

