-- ==== Sys2Proof/Machine/Dispatch.lean ====
section
/-! DEFINITION. One arm per row of spec/opcode_table.json. -/

namespace Sys2Proof.Machine

def exec (i : Instr) (s : State) : Host.Outcome State Fault Refusal :=
  match i with
  -- command words (spec/30_encoding.md R88)
  | .rd addr data => Sys2Proof.Machine.execRd addr data s
  | .wr addr data => Sys2Proof.Machine.execWr addr data s
  | .chipinfo addr selector => Sys2Proof.Machine.execChipinfo addr selector s
  -- wire frames (spec/30_encoding.md R84)
  | .frameRd address payload => Sys2Proof.Machine.execFrameRd address payload s
  | .frameWr address payload => Sys2Proof.Machine.execFrameWr address payload s

end Sys2Proof.Machine
end

