-- ==== Sys2Proof/Machine/Events.lean ====
section
/-! DEFINITION. What an event of spec/10_state.md R36 brings: an instruction (a command word on the command port, or a whole
frame from the transport), or an event that carries none. Also how an instruction is placed where the next step meets it. -/

namespace Sys2Proof.Machine

variable {K : Type}

/-- The instruction an event carries: the command word's (R88), or that of a whole received frame (R84, R85). A reserved
word (R89), a short receive, a failure, CONSUME and RESET carry none. -/
def Event.instr : Event K → Option Instr
  | .accept w         => (decodeCommand w).toOption
  | .xdone (.ok rx n) => if n.val = 5 then some rx.frame.instr else none
  | .xdone (.fail _)  => none
  | .consume          => none
  | .reset            => none

/-- An event that carries no instruction. A command word without one is reserved and refused (R89). -/
def performEvent (e : Event K) (s : State.Of K) : Host.Outcome (State.Of K) Fault Refusal :=
  match e with
  | .accept w => .refused (.reservedCommand w)
  | .xdone o  => transportAnswer o s
  | .consume  => if s.phase = .resp then .next s.consume else .next (s.hold .consume)
  | .reset    => .next s.rst

/-- Offers an encoded instruction where the next step meets it. A command word is offered to an idle block. A wire frame
is the reply to an exchange, so where none is outstanding a read of the frame's own address is outstanding first (R35,
R62). DESIGN CHOICE (log 8). -/
def State.Of.offerEncoded (e : Encoded) (s : State.Of K) : State.Of K :=
  match e with
  | .command w => (s.setPhase .idle).hold (.accept w)
  | .wire bs =>
    if s.phase.outstanding && s.cmd.isSome then s.hold (.xdone (.ok bs 5))
    else ((s.setPhase .idle).accept .rd bs.frame.address 0#32).hold (.xdone (.ok bs 5))

end Sys2Proof.Machine
end

