-- ==== Sys2Proof/Machine/Step.lean ====
section
/-! DEFINITION. One step is one event (spec/10_state.md R36, spec/00_scope.md R6): the oldest offered event that is enabled.
The block fetches nothing (R28, R71): an instruction reaches it inside an event. -/

namespace Sys2Proof.Machine

/-- One event, for any TKind (R8) and a dispatch of the instructions at it. Where no event is enabled, nothing moves: the hang
of R226, or the end of the caller's offers. -/
def stepWith {K : Type} (run : Instr → State.Of K → Host.Outcome (State.Of K) Fault Refusal) (s : State.Of K) :
    Host.Outcome (State.Of K) Fault Refusal :=
  match nextOffer s.phase s.offers with
  | none => .fault (.noEventEnabled s.phase)
  | some (e, rest) =>
    match e.instr with
    | some i => run i (s.setOffers rest)
    | none   => performEvent e (s.setOffers rest)

/-- One event of the host's machine. -/
def step (s : State) : Host.Outcome State Fault Refusal := stepWith exec s

/-- `s` with the instruction of a table word offered to the block, so that the next step runs it (log 8). A number that is
no word of its object is not placed (R93). -/
def State.withFetchWord (s : State) (nbits w : Nat) : State :=
  match tableObject nbits w with
  | some e => s.offerEncoded e
  | none   => s

end Sys2Proof.Machine
end

