-- ==== Sys2Proof/Machine/Assembler.lean ====
section
/-! DEFINITION. The assembler notation of spec/30_encoding.md R94 and R95, and what the reference caller of
spec/41_transactions.md R158 offers for a list of commands. An address or a value too wide for its field is rejected and
never masked (R93). -/

namespace Sys2Proof.Machine

/-! ## From a checked source line to an instruction -/

/-- The octets of a list of exactly five numbers below 256 (R80, R94). -/
def octetsOf : List Nat → Option Bytes5
  | [a, b, c, d, e] =>
    if a < 2 ^ 8 ∧ b < 2 ^ 8 ∧ c < 2 ^ 8 ∧ d < 2 ^ 8 ∧ e < 2 ^ 8 then
      some { b0 := BitVec.ofNat 8 a, b1 := BitVec.ofNat 8 b, b2 := BitVec.ofNat 8 c, b3 := BitVec.ofNat 8 d,
             b4 := BitVec.ofNat 8 e }
    else none
  | _ => none

/-- The instruction a source line stands for, if its numbers fit (R93, R94). Ignored fields are written as 0. -/
def assemble : Source → Option Instr
  | .rd a       => if addrInRange a then some (.rd (BitVec.ofNat 7 a) 0#32) else none
  | .wr a v     => if addrInRange a && valueInRange v then some (.wr (BitVec.ofNat 7 a) (BitVec.ofNat 32 v)) else none
  | .chipinfo n => if valueInRange n then some (.chipinfo 0#7 (BitVec.ofNat 32 n)) else none
  | .octets bs  => (octetsOf bs).map (fun b => b.frame.instr)

/-! ## From characters to a source line -/

/-- The value of a digit, decimal or hexadecimal. -/
def digitValue (c : Char) : Option Nat :=
  if '0' ≤ c ∧ c ≤ '9' then some (c.toNat - '0'.toNat)
  else if 'a' ≤ c ∧ c ≤ 'f' then some (c.toNat - 'a'.toNat + 10)
  else if 'A' ≤ c ∧ c ≤ 'F' then some (c.toNat - 'A'.toNat + 10)
  else none

/-- Reads digits of a base into a number that already holds the ones before. -/
def readDigits (base acc : Nat) : List Char → Option Nat
  | [] => some acc
  | c :: cs =>
    match digitValue c with
    | some d => if d < base then readDigits base (acc * base + d) cs else none
    | none   => none

/-- "Numbers are decimal, or hexadecimal with a `0x` prefix" (R94). -/
def readNumber : List Char → Option Nat
  | [] => none
  | ['0', 'x'] => none
  | '0' :: 'x' :: ds => readDigits 16 0 ds
  | ds => readDigits 10 0 ds

/-- Drops the spaces at both ends. -/
def trimSpaces (cs : List Char) : List Char :=
  ((cs.dropWhile (· == ' ')).reverse.dropWhile (· == ' ')).reverse

/-- The parts of a text between occurrences of a separator. -/
def splitAtChar (sep : Char) : List Char → List (List Char)
  | [] => [[]]
  | c :: cs =>
    if c == sep then [] :: splitAtChar sep cs
    else
      match splitAtChar sep cs with
      | p :: ps => (c :: p) :: ps
      | []      => [[c]]

/-- The selector names of R95. SI_TYPE = 0 is the source's; the other five are PRESUMED (log 17), informative only: every
32-bit selector can be written as a number. -/
def selectorName (cs : List Char) : Option Nat :=
  if cs = "SI_TYPE".toList then some 0
  else if cs = "SI_VERSION".toList then some 1
  else if cs = "SI_DATE".toList then some 2
  else if cs = "SI_TIME".toList then some 3
  else if cs = "SI_VARIANT".toList then some 4
  else if cs = "SI_BUILD".toList then some 5
  else none

/-- `<selector>`: a number, or a name that stands for one (R95). -/
def readSelector (cs : List Char) : Option Nat :=
  match selectorName cs with
  | some n => some n
  | none   => readNumber cs

/-- The numbers of a comma-separated list. -/
def readNumbers (cs : List Char) : Option (List Nat) :=
  ((splitAtChar ',' cs).map trimSpaces).mapM readNumber

/-- One line of assembler notation (R94): `RD <addr>`, `WR <addr>, <value>`, `CHIPINFO <selector>`, or a frame as its octet
vector. -/
def readLine (line : List Char) : Option Source :=
  match trimSpaces line with
  | 'R' :: 'D' :: ' ' :: cs => (readNumber (trimSpaces cs)).map Source.rd
  | 'W' :: 'R' :: ' ' :: cs =>
    match readNumbers cs with
    | some [a, v] => some (.wr a v)
    | _           => none
  | 'C' :: 'H' :: 'I' :: 'P' :: 'I' :: 'N' :: 'F' :: 'O' :: ' ' :: cs => (readSelector (trimSpaces cs)).map Source.chipinfo
  | '[' :: cs =>
    match cs.reverse with
    | ']' :: body => (readNumbers body.reverse).map Source.octets
    | _           => none
  | _ => none

/-- The command word of a source line that is a command. A frame is no command. -/
def Source.command (src : Source) : Option CommandWord :=
  match assemble src with
  | some i =>
    match encode i with
    | .command w => some w
    | .wire _    => none
  | none => none

/-- "A program is a list of commands, one per line" (R94). The lines stand between newlines, and every one must be a command:
a text with a blank line, a newline at its end, or nothing in it is rejected whole, on which the spec says nothing. DESIGN
CHOICE (log 22), safe. -/
def readProgram (text : List Char) : Option (List CommandWord) :=
  (splitAtChar '\n' text).mapM (fun line => (readLine line).bind Source.command)

/-! ## The reference caller -/

/-- What the reference caller offers for its commands, in order (R158): ACCEPT each, take its response with CONSUME, and go
on whatever the outcome. It waits by itself: an offer that is not enabled is held (R40). R158 names no RESET. What this caller
does after one that cuts its command short or discards its response is the model's choice: it does not notice, the CONSUME of
that command stays offered, the next ACCEPT overtakes it, and the CONSUME left over takes a later command's response. DESIGN
CHOICE (log 25), safe. -/
def callerOffers {K : Type} : List CommandWord → List (Event K)
  | [] => []
  | w :: ws => .accept w :: .consume :: callerOffers ws

/-- What the transport offers when it answers with the given outcomes, in order. -/
def transportOffers {K : Type} (os : List (Answer K)) : List (Event K) := os.map Event.xdone

end Sys2Proof.Machine
end

