-- ==== Sys2Proof/Machine/Kinds.lean ====
section
/-! DEFINITION. The machine at any TKind: R8 makes the transport's failure classification a type parameter, and "a model takes
each as an argument". The host's `exec` and `step` are this machine at one type (log 3). Also what it means to relabel the kinds
of a state, by which "the block does not interpret it" (spec/60_exceptions.md R182) can be said. -/

namespace Sys2Proof.Machine

/-! ## The machine at a type -/

/-- The dispatch of the instructions at the type `K`: the same meanings as in `exec`. -/
def execAt (K : Type) (i : Instr) (s : State.Of K) : Host.Outcome (State.Of K) Fault Refusal :=
  match i with
  | .rd addr data           => execRd addr data s
  | .wr addr data           => execWr addr data s
  | .chipinfo addr selector => execChipinfo addr selector s
  | .frameRd address payload => execFrameRd address payload s
  | .frameWr address payload => execFrameWr address payload s

/-- One event at the type `K`. -/
def stepAt (K : Type) (s : State.Of K) : Host.Outcome (State.Of K) Fault Refusal := stepWith (execAt K) s

/-! ## Relabelling -/

variable {K L : Type}

def Answer.mapKind (f : K → L) : Answer K → Answer L
  | .ok rx n => .ok rx n
  | .fail k  => .fail (f k)

def Record.mapKind (f : K → L) : Record K → Record L
  | .issue tx => .issue tx
  | .done o   => .done (o.mapKind f)
  | .reset    => .reset

def Event.mapKind (f : K → L) : Event K → Event L
  | .accept w => .accept w
  | .xdone o  => .xdone (o.mapKind f)
  | .consume  => .consume
  | .reset    => .reset

def Response.mapKind (f : K → L) (r : Response K) : Response L :=
  { status := r.status, data := r.data, kind := r.kind.map f }

/-- The state with every kind in it relabelled by `f`, and everything else as it is. -/
def State.Of.mapKind (f : K → L) (s : State.Of K) : State.Of L :=
  { par := s.par, phase := s.phase, cmd := s.cmd, buf := s.buf, rspValid := s.rspValid, rspStatus := s.rspStatus,
    rspData := s.rspData, rspKind := s.rspKind.map f, hist := s.hist.map (Record.mapKind f),
    offers := s.offers.map (Event.mapKind f), taken := s.taken.map (Response.mapKind f) }

/-- An outcome with its next state, if it has one, changed by `g`, and a fault or refusal as it is. -/
def mapNext {σ τ φ ρ : Type} (g : σ → τ) : Host.Outcome σ φ ρ → Host.Outcome τ φ ρ
  | .next s    => .next (g s)
  | .fault r   => .fault r
  | .refused r => .refused r

end Sys2Proof.Machine
end

