-- ==== Sys2Proof/Machine/Ports.lean ====
section
/-! DEFINITION. The block's ports (spec/10_state.md R40): the outputs with the reading rules of R21, the transport's signals,
and the caller's withdrawal of a command that waits (spec/70_reset_and_hazards.md R218). A read is no event and changes
nothing: it answers a value or a fault. -/

namespace Sys2Proof.Machine

variable {K : Type}

/-- `cmd_ready = (phase = IDLE)` (R40). -/
def State.Of.cmdReady (s : State.Of K) : Bool := s.phase == .idle

/-- The offers without the oldest command among them. -/
def dropFirstCommand : List (Event K) → List (Event K)
  | [] => []
  | .accept _ :: es => es
  | .xdone o :: es  => .xdone o :: dropFirstCommand es
  | .consume :: es  => .consume :: dropFirstCommand es
  | .reset :: es    => .reset :: dropFirstCommand es

/-- The caller lowers `cmd_valid` while its command waits: "A caller that drops a command presented while `cmd_ready = 0`
loses that command" (R218). It is the caller's move between events and no event of the block (R36). While `cmd_ready = 1`
nothing waits, so nothing is dropped. DEDUCED (log 26), safe. -/
def State.Of.dropCommand (s : State.Of K) : State.Of K :=
  match s.cmdReady with
  | true  => s
  | false => s.setOffers (dropFirstCommand s.offers)

/-- A read of a field that may hold no value (R21). -/
def readField {α : Type} (f : FieldName) : Option α → Except Fault α
  | some v => .ok v
  | none   => .error (.readUnspec f)

/-- `rsp_status`, which the caller may read only while `rsp_valid = 1` (R21). -/
def State.Of.readRspStatus (s : State.Of K) : Except Fault Status :=
  if s.rspValid then readField .rspStatus s.rspStatus else .error (.readUnspec .rspStatus)

/-- `rsp_data`, which the caller may read only while `rsp_valid = 1` (R21). -/
def State.Of.readRspData (s : State.Of K) : Except Fault Payload :=
  if s.rspValid then readField .rspData s.rspData else .error (.readUnspec .rspData)

/-- `rsp_kind`, which the caller may read only while `rsp_valid = 1` and `rsp_status = COMM_ERR` (R21). -/
def State.Of.readRspKind (s : State.Of K) : Except Fault K :=
  if s.rspValid = true ∧ s.rspStatus = some .commErr then readField .rspKind s.rspKind
  else .error (.readUnspec .rspKind)

/-- `x_req`, as a level: the transport holds `buf` and owes one XDONE (R35). The spec says only that `x_req` is asserted when
an exchange is issued (R40, R60, R141). That it stays asserted through X1 and X2, and so does not drop between CHIPINFO's two
exchanges, is the model's choice. DESIGN CHOICE (log 24), safe. -/
def State.Of.exchangeOutstanding (s : State.Of K) : Bool := s.phase.outstanding

/-- `x_tx`, the octets of `buf`, as the transport reads them (R20, R40). -/
def State.Of.readTx (s : State.Of K) : Except Fault Bytes5 := readField .buf s.buf

/-- `cmd`, which is kept "so that the command in progress can be observed" (R23). -/
def State.Of.readCmd (s : State.Of K) : Except Fault Command := readField .cmd s.cmd

/-- The transport port as signals (R40): `x_ok`, `x_rx`, `x_rx_len` and `x_kind` make one outcome. A length of 6 or 7 makes
none (R61). -/
def Answer.ofPort (xOk : Bool) (xRx : Bytes5) (xRxLen : BitVec 3) (xKind : K) : Option (Answer K) :=
  if xOk then (rxLength xRxLen).map (Answer.ok xRx) else some (.fail xKind)

end Sys2Proof.Machine
end

