-- ==== Sys2Proof/Safety.lean ====
section
/-! DEFINITION. What a good state is: the invariants of spec/41_transactions.md R163 and what the other rules say of a held
exchange and a held response; and when a caller may use a response (R151, R219). -/

namespace Sys2Proof.Machine

variable {K : Type}

/-! ## R163 -/

/-- The last record of the history is an `Issue`. -/
def lastIsIssue (h : List (Record K)) : Bool :=
  match h.getLast? with
  | some (.issue _) => true
  | _               => false

/-- The five invariants of R163. The fifth is carried by the type of `cmd.op` (R23: 0b11 is never latched). -/
abbrev State.Of.Inv (s : State.Of K) : Prop :=
  (s.rspValid = true ↔ s.phase = .resp) ∧
  (s.phase = .x2 → s.cmd.map Command.op = some .chipinfo) ∧
  (s.phase.outstanding = true ↔ lastIsIssue s.hist = true) ∧
  (s.phase = .idle →
    s.cmd = none ∧ s.buf = none ∧ s.rspStatus = none ∧ s.rspData = none ∧ s.rspKind = none) ∧
  (s.phase ≠ .idle → s.cmd.isSome = true)

/-! ## Exchanges -/

/-- Reads one record of the history: `some open` while the history is in order, `open` saying that an exchange is
outstanding; `none` once two exchanges overlapped or one ended that was not outstanding (R66). -/
def advance : Option Bool → Record K → Option Bool
  | some false, .issue _ => some true
  | some true,  .done _  => some false
  | some _,     .reset   => some false
  | _,          _        => none

/-- Whether the history is in order, and whether its last exchange is outstanding (R66: "Every `Issue` in `hist` is followed
by its `Done` (or by `Reset`) before the next `Issue`"). -/
def openExchange (h : List (Record K)) : Option Bool := h.foldl advance (some false)

/-- The request frame of the outstanding exchange (R90). -/
def outstandingRequest (p : Params) (c : Command) (ph : Phase) : Frame :=
  if ph = .x2 then secondRequest p else firstRequest p c.op c.addr c.data

/-- What R24, R66 and R90 say of an exchange: the history is in order, `phase` tells whether an exchange is outstanding,
and while one is, `buf` holds ENCODE of the command's request frame. -/
abbrev State.Of.ExchangeInv (s : State.Of K) : Prop :=
  openExchange s.hist = some s.phase.outstanding ∧
  (s.phase.outstanding = true → s.buf = s.cmd.map (fun c => encodeFrame (outstandingRequest s.par c s.phase)))

/-! ## Responses -/

/-- What R26, R151 and R181 say of the response registers: they hold no value but in RESP; a held response has a status and
data; the kind is held exactly with COMM_ERR; and data is 0 unless RD or CHIPINFO succeeded. -/
abbrev State.Of.ResponseInv (s : State.Of K) : Prop :=
  (s.phase ≠ .resp → s.rspStatus = none ∧ s.rspData = none ∧ s.rspKind = none) ∧
  (s.phase = .resp → s.rspStatus.isSome = true ∧ s.rspData.isSome = true) ∧
  (s.phase = .resp → (s.rspKind.isSome = true ↔ s.rspStatus = some .commErr)) ∧
  (s.phase = .resp → s.rspStatus ≠ some .ok → s.rspData = some 0#32) ∧
  (s.phase = .resp → s.cmd.map Command.op = some .wr → s.rspData = some 0#32)

/-- A good state: all of it together. -/
abbrev State.Of.Good (s : State.Of K) : Prop := s.Inv ∧ s.ExchangeInv ∧ s.ResponseInv

/-! ## What a caller may conclude from a response -/

/-- The value a response gives for a command (R151): "only `rsp_status = OK` together with a command of RD or CHIPINFO makes
`rsp_data` a result". -/
def Response.result (op : Op) (r : Response K) : Option Payload :=
  if r.status = some .ok ∧ op ≠ .wr then r.data else none

/-- Whether a write is confirmed: after an error it "must be treated as 'not confirmed'" (R64, R219). The rules say no more than
that. That every OK response answers true, an RD's included, is the model's choice: it looks at the status alone, and a caller
asks it of a command that writes. DESIGN CHOICE (log 27), unsafe where a claim takes true to say that the device was written. -/
def Response.confirmsWrite (r : Response K) : Bool := r.status == some .ok

/-- The next state, if there is one. -/
def nextState : Host.Outcome (State.Of K) Fault Refusal → Option (State.Of K)
  | .next s    => some s
  | .fault _   => none
  | .refused _ => none

end Sys2Proof.Machine
end

