-- ==== Sys2Proof/Certificates/Slice0/Obligations.lean ====
section
/-! DEFINITION. The statements for the provers, from the numbered rules of spec/. Each docstring names the rule or the section
it formalises. `none` in `cmd`, `buf` and the response registers is UNSPEC (R21).
A statement about `step` speaks of the list `offers`, in which the model holds what the agents offer on the input ports: that
list is the model's choice (log 4), and so is `taken`, the caller's record (log 12). A statement about FRAME_RD or FRAME_WR
rests on the reading that such a frame is the transport's answer (log 7). -/

open Sys2Proof Sys2Proof.Machine

/-! ## The frame codec (spec/40_codec.md) -/

/-- R112, R83: "encoding with direction=Write sets exactly bit 7 of byte 0 in addition to the 7 address bits; encoding with
direction=Read leaves bit 7 clear". Octet 0 is `0x80 + a` or `a`. -/
def Obligations.EncodeIsolatesDirectionBit : Prop :=
  ∀ (a : Address) (p : Payload),
    (encodeFrame { direction := .write, address := a, payload := p }).b0 = 0x80#8 + a.setWidth 8 ∧
    (encodeFrame { direction := .read, address := a, payload := p }).b0 = a.setWidth 8 ∧
    (encodeFrame { direction := .write, address := a, payload := p }).b0.getLsbD 7 = true ∧
    (encodeFrame { direction := .read, address := a, payload := p }).b0.getLsbD 7 = false ∧
    ∀ d : Dir, (encodeFrame { direction := d, address := a, payload := p }).b0.extractLsb' 0 7 = a

/-- R53: the payload is big-endian in both directions, when a frame is encoded and when octets are decoded. R113 is the
source's instance of it, with octet 0 as R112 gives it. -/
def Obligations.PayloadIsBigEndianBothWays : Prop :=
  (∀ f : Frame,
    (encodeFrame f).b1 = f.payload.extractLsb' 24 8 ∧ (encodeFrame f).b2 = f.payload.extractLsb' 16 8 ∧
    (encodeFrame f).b3 = f.payload.extractLsb' 8 8 ∧ (encodeFrame f).b4 = f.payload.extractLsb' 0 8) ∧
  (∀ (d : Dir) (a : Address), encodeFrame { direction := d, address := a, payload := 0x01020304#32 } =
    ⟨if d = .write then 0x80#8 + a.setWidth 8 else a.setWidth 8, 0x01#8, 0x02#8, 0x03#8, 0x04#8⟩) ∧
  ∀ (bs : Bytes5) (f : Frame), decodeFrame bs.toList = .frame f →
    bs.b1 = f.payload.extractLsb' 24 8 ∧ bs.b2 = f.payload.extractLsb' 16 8 ∧
    bs.b3 = f.payload.extractLsb' 8 8 ∧ bs.b4 = f.payload.extractLsb' 0 8

/-- R115: below five octets always a ParseError, at five or more never, and then only the first five are consulted. -/
def Obligations.DecodeLengthRule : Prop :=
  ∀ bs : List Octet,
    (bs.length < 5 → decodeFrame bs = .parseError) ∧
    (5 ≤ bs.length → decodeFrame bs ≠ .parseError ∧ decodeFrame bs = decodeFrame (bs.take 5))

/-- R82, R114, R116: bit 7 of octet 0 is the direction, bits 6 to 0 are the address, which is below 128, and octets 1 to 4
are the payload, the first most significant; octets after the fifth are ignored. -/
def Obligations.DecodeReadsTheWireFields : Prop :=
  ∀ (b0 b1 b2 b3 b4 : Octet) (rest : List Octet),
    ∃ f : Frame, decodeFrame (b0 :: b1 :: b2 :: b3 :: b4 :: rest) = .frame f ∧
      (f.direction = .write ↔ b0.getLsbD 7 = true) ∧ (f.direction = .read ↔ b0.getLsbD 7 = false) ∧
      f.address = b0.extractLsb' 0 7 ∧ f.address.toNat < 128 ∧
      f.payload.toNat = b1.toNat * 2 ^ 24 + b2.toNat * 2 ^ 16 + b3.toNat * 2 ^ 8 + b4.toNat

/-- R120: the round trip. -/
def Obligations.DecodeOfEncodeIsTheFrame : Prop :=
  ∀ f : Frame, decodeFrame (encodeFrame f).toList = .frame f

/-- spec/40_codec.md, section Laws (R121, which the spec derives from R110 and R114): the inverse round trip. -/
def Obligations.EncodeOfDecodeIsTheOctets : Prop :=
  ∀ bs : Bytes5, ∃ f : Frame, decodeFrame bs.toList = .frame f ∧ encodeFrame f = bs

/-- R81, R84, R85: all 2^40 patterns decode, by `F[39]`, with the address `F[38:32]` and the payload `F[31:0]`; and `F` is
its octets and nothing else. -/
def Obligations.EveryWireWordDecodesByBit39 : Prop :=
  (∀ bs : Bytes5, decode (.wire bs) =
    .ok (if bs.word.getLsbD 39 then .frameWr (bs.word.extractLsb' 32 7) (bs.word.extractLsb' 0 32)
         else .frameRd (bs.word.extractLsb' 32 7) (bs.word.extractLsb' 0 32))) ∧
  (∀ F : BitVec 40, (Bytes5.ofWord F).word = F) ∧ (∀ bs : Bytes5, Bytes5.ofWord bs.word = bs)

/-! ## Instructions as words (spec/30_encoding.md) -/

/-- Decoding the encoding of an instruction gives it back, for every instruction and every value of its operands. -/
def Obligations.DecodeOfEncodeIsTheInstruction : Prop :=
  ∀ i : Instr, decode (encode i) = .ok i

/-- The other direction: what decodes is the encoding of what it decodes to, so no bit of a word is dropped. -/
def Obligations.EncodeOfDecodeIsTheWord : Prop :=
  ∀ (e : Encoded) (i : Instr), decode e = .ok i → encode i = e

/-- The words of spec/opcode_table.json round-trip too, for the row's width as the table gives it and in whole bytes. That the
number of bits tells a frame from a command word, and may be rounded up to whole bytes, is the model's reading (log 9, DEDUCED)
and stands in no rule. -/
def Obligations.TableWordOfEveryInstructionDecodes : Prop :=
  ∀ i : Instr,
    decodeTableWord (encode i).bits (encode i).tableWord = some i ∧
    decodeTableWord (((encode i).bits + 7) / 8 * 8) (encode i).tableWord = some i

/-- R89: exactly the words with `op = 0b11` are reserved, and they decode to nothing. -/
def Obligations.OnlyOpElevenIsReserved : Prop :=
  ∀ w : CommandWord,
    (decodeCommand w = .error .reservedOp ↔ w.getLsbD 40 = true ∧ w.getLsbD 39 = true) ∧
    (w.wellFormed = true ↔ ∃ i, decodeCommand w = .ok i)

/-- Words written out in spec/95_test_vectors.md sections 2.1 to 2.3 decode to what they stand for. -/
def Obligations.WordsOfTheSpecDecode : Prop :=
  decodeCommand 0x01200000000#41 = .ok (.rd 0x12#7 0#32) ∧
  decodeCommand 0x0A012345678#41 = .ok (.wr 0x20#7 0x12345678#32) ∧
  decodeCommand 0x10000000002#41 = .ok (.chipinfo 0#7 2#32) ∧
  decodeCommand 0x18000000000#41 = .error .reservedOp ∧
  decodeOctets [0x01#8, 0x02#8, 0x03#8, 0x04#8, 0x05#8] = .ok (.frameRd 0x01#7 0x02030405#32) ∧
  decodeOctets [0xC5#8, 0xAA#8, 0xBB#8, 0xCC#8, 0xDD#8] = .ok (.frameWr 0x45#7 0xAABBCCDD#32)

/-- R93, R94: a source line is assembled exactly when its numbers fit, and then they are kept whole, the five numbers of an octet
vector too: an address, a value or an octet is rejected and never masked. That the ignored fields of RD and CHIPINFO are
assembled as 0 is the model's choice (log 22). -/
def Obligations.AssemblerRejectsAndNeverMasks : Prop :=
  (∀ src : Source, (assemble src).isSome = src.wellFormed) ∧
  (∀ (n : Nat) (i : Instr), assemble (.rd n) = some i → ∃ a : Address, i = .rd a 0#32 ∧ a.toNat = n) ∧
  (∀ (n v : Nat) (i : Instr), assemble (.wr n v) = some i →
    ∃ (a : Address) (d : Payload), i = .wr a d ∧ a.toNat = n ∧ d.toNat = v) ∧
  (∀ (v : Nat) (i : Instr), assemble (.chipinfo v) = some i → ∃ d : Payload, i = .chipinfo 0#7 d ∧ d.toNat = v) ∧
  ∀ (ns : List Nat) (i : Instr), assemble (.octets ns) = some i →
    ∃ bs : Bytes5, bs.toList.map BitVec.toNat = ns ∧ decode (.wire bs) = .ok i

/-! ## The commands: ACCEPT (spec/41_transactions.md R141) -/

/-- R141, the pseudocode of ACCEPT on the word's own bits: enabled iff `phase = IDLE` and `w[40:39] ≠ 0b11`; it latches
`op`, `addr` and `data`, issues ENCODE of the request frame and goes to X1. Where it is not enabled nothing in the block
changes. -/
def Obligations.AcceptFollowsItsPseudocode : Prop :=
  ∀ (s : State) (w : CommandWord),
    (w.extractLsb' 39 2 = 0b11#2 → decodeCommand w = .error .reservedOp) ∧
    (w.extractLsb' 39 2 ≠ 0b11#2 → ∃ (i : Instr) (op : Op) (tx : Bytes5),
      decodeCommand w = .ok i ∧ op.code = w.extractLsb' 39 2 ∧
      tx = encodeFrame (match op with
        | .rd => { direction := .read, address := w.extractLsb' 32 7, payload := 0#32 }
        | .wr => { direction := .write, address := w.extractLsb' 32 7, payload := w.extractLsb' 0 32 }
        | .chipinfo => { direction := .write, address := s.par.chipInfoAddr, payload := w.extractLsb' 0 32 }) ∧
      (s.phase = .idle → exec i s = .next { s with
        cmd := some { op := op, addr := w.extractLsb' 32 7, data := w.extractLsb' 0 32 }
        buf := some tx
        hist := s.hist ++ [.issue tx]
        phase := .x1 }) ∧
      (s.phase ≠ .idle → ∀ t, exec i s = .next t →
        t.phase = s.phase ∧ t.cmd = s.cmd ∧ t.buf = s.buf ∧ t.rspValid = s.rspValid ∧ t.rspStatus = s.rspStatus ∧
        t.rspData = s.rspData ∧ t.rspKind = s.rspKind ∧ t.par = s.par ∧ t.hist = s.hist))

/-- RD in IDLE completes its ACCEPT: it issues `[addr, 0, 0, 0, 0]` (R147) and nothing else changes. -/
def Obligations.RdIssuesItsReadFrame : Prop :=
  ∀ (s : State) (a : Address) (d : Payload), s.phase = .idle →
    exec (.rd a d) s = .next { s with
      phase := .x1
      cmd := some { op := .rd, addr := a, data := d }
      buf := some ⟨a.setWidth 8, 0#8, 0#8, 0#8, 0#8⟩
      hist := s.hist ++ [.issue ⟨a.setWidth 8, 0#8, 0#8, 0#8, 0#8⟩] }

/-- WR in IDLE completes its ACCEPT: it issues `[0x80 | addr, value[31:24], …, value[7:0]]` (R149). -/
def Obligations.WrIssuesItsWriteFrame : Prop :=
  ∀ (s : State) (a : Address) (d : Payload), s.phase = .idle →
    let tx : Bytes5 := ⟨0x80#8 ||| a.setWidth 8, d.extractLsb' 24 8, d.extractLsb' 16 8, d.extractLsb' 8 8, d.extractLsb' 0 8⟩
    exec (.wr a d) s = .next { s with
      phase := .x1
      cmd := some { op := .wr, addr := a, data := d }
      buf := some tx
      hist := s.hist ++ [.issue tx] }

/-- CHIPINFO in IDLE completes its ACCEPT: it issues the write of the selector, verbatim, to P_CHIPINFO_ADDR (R92, R152),
whatever its ignored address field is (R88). -/
def Obligations.ChipinfoIssuesItsSelectorWrite : Prop :=
  ∀ (s : State) (a : Address) (d : Payload), s.phase = .idle →
    let tx : Bytes5 :=
      ⟨0x80#8 ||| s.par.chipInfoAddr.setWidth 8, d.extractLsb' 24 8, d.extractLsb' 16 8, d.extractLsb' 8 8, d.extractLsb' 0 8⟩
    exec (.chipinfo a d) s = .next { s with
      phase := .x1
      cmd := some { op := .chipinfo, addr := a, data := d }
      buf := some tx
      hist := s.hist ++ [.issue tx] }

/-- spec/10_state.md section 4 and spec/70_reset_and_hazards.md section 3 (R40, R218): where a command waits. While
`cmd_ready = 0` it is not taken: the block does not change, and the caller holds the word. That the held word stands first
among the offers is the model's choice (log 6). -/
def Obligations.BusyBlockLeavesTheCommandHeld : Prop :=
  ∀ (s : State) (a : Address) (d : Payload), s.phase ≠ .idle →
    exec (.rd a d) s = .next { s with offers := .accept (0b00#2 ++ a ++ d) :: s.offers } ∧
    exec (.wr a d) s = .next { s with offers := .accept (0b01#2 ++ a ++ d) :: s.offers } ∧
    exec (.chipinfo a d) s = .next { s with offers := .accept (0b10#2 ++ a ++ d) :: s.offers }

/-- The frame of the three commands: no response register (R141: "ACCEPT writes no response register"), no parameter and no
recorded response changes; in IDLE no offer changes, and elsewhere nothing but the offers does. -/
def Obligations.CommandsLeaveEverythingElseAlone : Prop :=
  ∀ (s t : State) (a : Address) (d : Payload),
    exec (.rd a d) s = .next t ∨ exec (.wr a d) s = .next t ∨ exec (.chipinfo a d) s = .next t →
      t.par = s.par ∧ t.rspValid = s.rspValid ∧ t.rspStatus = s.rspStatus ∧ t.rspData = s.rspData ∧
      t.rspKind = s.rspKind ∧ t.taken = s.taken ∧ (s.phase = .idle → t.offers = s.offers) ∧
      (s.phase ≠ .idle → t.phase = s.phase ∧ t.cmd = s.cmd ∧ t.buf = s.buf ∧ t.hist = s.hist)

/-- spec/10_state.md section 4 (R38): what ACCEPT writes depends on the command and the parameters only, in any two idle
states, good or not. -/
def Obligations.AcceptDependsOnTheCommandOnly : Prop :=
  ∀ (s t : State) (a : Address) (d : Payload) (i : Instr), s.phase = .idle → t.phase = .idle → s.par = t.par →
    i = .rd a d ∨ i = .wr a d ∨ i = .chipinfo a d →
      ∃ (s' t' : State) (r : List (Record TKind)), exec i s = .next s' ∧ exec i t = .next t' ∧ s'.phase = t'.phase ∧
        s'.cmd = t'.cmd ∧ s'.buf = t'.buf ∧ s'.hist = s.hist ++ r ∧ t'.hist = t.hist ++ r

/-- The last sentence of R88 for ACCEPT and for the replies: the ignored fields, RD's data and CHIPINFO's address, reach
`cmd` and nothing else. -/
def Obligations.IgnoredFieldsReachCmdOnly : Prop :=
  (∀ (s : State) (a a' : Address) (d d' : Payload), s.phase = .idle → ∃ t u v w : State,
    exec (.rd a d) s = .next t ∧ exec (.rd a d') s = .next u ∧ u = { t with cmd := u.cmd } ∧
    exec (.chipinfo a d) s = .next v ∧ exec (.chipinfo a' d) s = .next w ∧ w = { v with cmd := w.cmd }) ∧
  (∀ (s t : State) (c : Command) (b : Address) (p : Payload) (a : Address) (d : Payload), s.cmd = some c →
    (∃ c', (c.op = .rd ∧ c' = { c with data := d } ∨ c.op = .chipinfo ∧ c' = { c with addr := a }) ∧
      t = { s with cmd := some c' }) →
    s.phase = .x1 ∨ s.phase = .x2 ∧ c.op = .chipinfo → ∀ i, i = .frameRd b p ∨ i = .frameWr b p → ∃ s' t' : State,
      exec i s = .next s' ∧ exec i t = .next t' ∧ s' = { t' with cmd := s'.cmd })

/-! ## The frames: XDONE of a whole reply (spec/41_transactions.md R142) -/

/-- R142, the pseudocode of XDONE on the received octets' own bits, with `ReqAddr(st)`: enabled iff `phase ∈ {X1, X2}`; the
history gets `Done(o)`; then Fail, a short receive, the strict check and the command's own case, in this order, for every
command and phase that R163 lets meet. -/
def Obligations.XdoneFollowsItsPseudocode : Prop :=
  (∀ (o : Answer TKind) (p : Phase), (Event.xdone o).enabledIn p = true ↔ p = .x1 ∨ p = .x2) ∧
  ∀ (s : State) (c : Command) (o : Answer TKind), s.cmd = some c → s.phase = .x1 ∨ s.phase = .x2 ∧ c.op = .chipinfo →
    let ended (b : Option Bytes5) (st : Status) (d : Payload) (k : Option TKind) : State := { s with
      hist := s.hist ++ [.done o], buf := b
      rspStatus := some st, rspData := some d, rspKind := k, rspValid := true, phase := .resp }
    let req : Address :=
      if c.op = .chipinfo then (if s.phase = .x1 then s.par.chipInfoAddr else s.par.chipInfoData) else c.addr
    let second : Bytes5 := encodeFrame { direction := .read, address := s.par.chipInfoData, payload := 0#32 }
    xdone o s = .next (match o with
      | .fail k => ended none .commErr 0#32 (some k)
      | .ok rx n =>
        if n.val < 5 then ended (some rx) .parseErr 0#32 none
        else if s.par.strictReplyCheck = true ∧ rx.b0.extractLsb' 0 7 ≠ req then
          ended (some rx) .unexpectedReply 0#32 none
        else if c.op = .wr then ended (some rx) .ok 0#32 none
        else if c.op = .chipinfo ∧ s.phase = .x1 then
          { s with hist := s.hist ++ [.done o, .issue second], buf := some second, phase := .x2 }
        else ended (some rx) .ok (rx.b1 ++ rx.b2 ++ rx.b3 ++ rx.b4) none)

/-- A frame that answers RD completes it with the reply's payload (R147), when the strict check is off or passes. -/
def Obligations.FrameCompletesRd : Prop :=
  ∀ (s : State) (c : Command) (a : Address) (p : Payload), s.phase = .x1 → s.cmd = some c → c.op = .rd →
    s.par.strictReplyCheck = false ∨ a = c.addr →
      exec (.frameRd a p) s = .next { s with
        phase := .resp, rspValid := true, rspStatus := some .ok, rspData := some p, rspKind := none
        buf := some (encodeFrame { direction := .read, address := a, payload := p })
        hist := s.hist ++ [.done (.ok (encodeFrame { direction := .read, address := a, payload := p }) 5)] } ∧
      exec (.frameWr a p) s = .next { s with
        phase := .resp, rspValid := true, rspStatus := some .ok, rspData := some p, rspKind := none
        buf := some (encodeFrame { direction := .write, address := a, payload := p })
        hist := s.hist ++ [.done (.ok (encodeFrame { direction := .write, address := a, payload := p }) 5)] }

/-- A frame that answers WR completes it with data 0 (R149, R151): the reply's payload is discarded. -/
def Obligations.FrameCompletesWr : Prop :=
  ∀ (s : State) (c : Command) (a : Address) (p : Payload), s.phase = .x1 → s.cmd = some c → c.op = .wr →
    s.par.strictReplyCheck = false ∨ a = c.addr →
      exec (.frameRd a p) s = .next { s with
        phase := .resp, rspValid := true, rspStatus := some .ok, rspData := some 0#32, rspKind := none
        buf := some (encodeFrame { direction := .read, address := a, payload := p })
        hist := s.hist ++ [.done (.ok (encodeFrame { direction := .read, address := a, payload := p }) 5)] } ∧
      exec (.frameWr a p) s = .next { s with
        phase := .resp, rspValid := true, rspStatus := some .ok, rspData := some 0#32, rspKind := none
        buf := some (encodeFrame { direction := .write, address := a, payload := p })
        hist := s.hist ++ [.done (.ok (encodeFrame { direction := .write, address := a, payload := p }) 5)] }

/-- R153: a frame that answers CHIPINFO's exchange 1 issues exchange 2, the read of P_CHIPINFO_DATA, in the same event. No
response is presented and the reply's payload is not kept. -/
def Obligations.FrameContinuesChipinfo : Prop :=
  ∀ (s : State) (c : Command) (a : Address) (p : Payload), s.phase = .x1 → s.cmd = some c → c.op = .chipinfo →
    s.par.strictReplyCheck = false ∨ a = s.par.chipInfoAddr →
      let tx : Bytes5 := ⟨s.par.chipInfoData.setWidth 8, 0#8, 0#8, 0#8, 0#8⟩
      exec (.frameRd a p) s = .next { s with
        phase := .x2, buf := some tx
        hist := s.hist ++ [.done (.ok (encodeFrame { direction := .read, address := a, payload := p }) 5), .issue tx] } ∧
      exec (.frameWr a p) s = .next { s with
        phase := .x2, buf := some tx
        hist := s.hist ++ [.done (.ok (encodeFrame { direction := .write, address := a, payload := p }) 5), .issue tx] }

/-- A frame that answers CHIPINFO's exchange 2 completes it with that reply's payload (R155). -/
def Obligations.FrameCompletesChipinfo : Prop :=
  ∀ (s : State) (c : Command) (a : Address) (p : Payload), s.phase = .x2 → s.cmd = some c → c.op = .chipinfo →
    s.par.strictReplyCheck = false ∨ a = s.par.chipInfoData →
      exec (.frameRd a p) s = .next { s with
        phase := .resp, rspValid := true, rspStatus := some .ok, rspData := some p, rspKind := none
        buf := some (encodeFrame { direction := .read, address := a, payload := p })
        hist := s.hist ++ [.done (.ok (encodeFrame { direction := .read, address := a, payload := p }) 5)] } ∧
      exec (.frameWr a p) s = .next { s with
        phase := .resp, rspValid := true, rspStatus := some .ok, rspData := some p, rspKind := none
        buf := some (encodeFrame { direction := .write, address := a, payload := p })
        hist := s.hist ++ [.done (.ok (encodeFrame { direction := .write, address := a, payload := p }) 5)] }

/-- R144 with P_STRICT_REPLY_CHECK true: a reply whose address is not the outstanding request's ends the command with
UNEXPECTED_REPLY and no further exchange, whichever its direction bit. -/
def Obligations.StrictCheckCatchesAnotherAddress : Prop :=
  ∀ (s : State) (c : Command) (a : Address) (p : Payload), s.phase = .x1 ∨ s.phase = .x2 → s.cmd = some c →
    s.par.strictReplyCheck = true →
    a ≠ (if c.op = .chipinfo then (if s.phase = .x1 then s.par.chipInfoAddr else s.par.chipInfoData) else c.addr) →
      exec (.frameRd a p) s = .next { s with
        phase := .resp, rspValid := true, rspStatus := some .unexpectedReply, rspData := some 0#32, rspKind := none
        buf := some (encodeFrame { direction := .read, address := a, payload := p })
        hist := s.hist ++ [.done (.ok (encodeFrame { direction := .read, address := a, payload := p }) 5)] } ∧
      exec (.frameWr a p) s = .next { s with
        phase := .resp, rspValid := true, rspStatus := some .unexpectedReply, rspData := some 0#32, rspKind := none
        buf := some (encodeFrame { direction := .write, address := a, payload := p })
        hist := s.hist ++ [.done (.ok (encodeFrame { direction := .write, address := a, payload := p }) 5)] }

/-- R91, R142, R144: the reply's direction is used nowhere, and its address nowhere while the strict check is off. Two
replies that differ so leave states that differ in `buf` and `hist` only. -/
def Obligations.ReplyDirectionAndAddressUnused : Prop :=
  ∀ (s : State) (c : Command) (a b : Address) (p : Payload), s.cmd = some c →
    s.phase = .x1 ∨ s.phase = .x2 ∧ c.op = .chipinfo → a = b ∨ s.par.strictReplyCheck = false →
      ∃ t u v : State, exec (.frameRd a p) s = .next t ∧ exec (.frameWr b p) s = .next u ∧ exec (.frameRd b p) s = .next v ∧
        u = { t with buf := u.buf, hist := u.hist } ∧ v = { t with buf := v.buf, hist := v.hist }

/-- R149: "`write_register(A, V)` returns success based only on transport success, independent of the decoded reply
payload's value". The response is the same for any two payloads, whatever the strict check says of the address. -/
def Obligations.WrResponseIgnoresReplyPayload : Prop :=
  ∀ (s : State) (c : Command) (a : Address) (p q : Payload), s.phase = .x1 → s.cmd = some c → c.op = .wr →
    ∃ t u : State, exec (.frameRd a p) s = .next t ∧ exec (.frameWr a q) s = .next u ∧ t.response = u.response ∧
      (s.par.strictReplyCheck = false → t.rspStatus = some .ok)

/-- spec/10_state.md R36 (V2, V3): XDONE is not enabled where no exchange is outstanding, so a frame changes nothing in the
block. That it stays offered is the model's choice (log 6). -/
def Obligations.FrameWithoutExchangeChangesNothing : Prop :=
  ∀ (s : State) (a : Address) (p : Payload), s.phase = .idle ∨ s.phase = .resp →
    exec (.frameRd a p) s = .next { s with
      offers := .xdone (.ok (encodeFrame { direction := .read, address := a, payload := p }) 5) :: s.offers } ∧
    exec (.frameWr a p) s = .next { s with
      offers := .xdone (.ok (encodeFrame { direction := .write, address := a, payload := p }) 5) :: s.offers }

/-- The frame of the two wire frames: the parameters, the latched command (R23: held "unchanged until the command ends") and
the recorded responses stay; while an exchange is outstanding so do the offers, the history keeps every record it had, and
the response registers change only on the way into RESP. -/
def Obligations.FramesLeaveEverythingElseAlone : Prop :=
  ∀ (s t : State) (a : Address) (p : Payload), exec (.frameRd a p) s = .next t ∨ exec (.frameWr a p) s = .next t →
    t.par = s.par ∧ t.cmd = s.cmd ∧ t.taken = s.taken ∧ (∃ r, t.hist = s.hist ++ r) ∧
    (s.phase = .x1 ∨ s.phase = .x2 → t.offers = s.offers) ∧
    (t.phase ≠ .resp → t.rspValid = s.rspValid ∧ t.rspStatus = s.rspStatus ∧ t.rspData = s.rspData ∧
      t.rspKind = s.rspKind)

/-! ## Events and steps (spec/10_state.md R36) -/

/-- A step runs the decoded instruction: a command word offered to an idle block, or a whole frame offered while an exchange
is outstanding. What the step adds is that the offer is used up. -/
def Obligations.StepRunsTheDecodedInstruction : Prop :=
  (∀ (s : State) (w : CommandWord) (rest : List (Event TKind)) (i : Instr), s.phase = .idle → s.offers = .accept w :: rest →
    decode (.command w) = .ok i → step s = exec i { s with offers := rest }) ∧
  ∀ (s : State) (bs : Bytes5) (rest : List (Event TKind)) (i : Instr), s.phase = .x1 ∨ s.phase = .x2 →
    s.offers = .xdone (.ok bs 5) :: rest → decode (.wire bs) = .ok i → step s = exec i { s with offers := rest }

/-- The enabling conditions of R36 and the holding of R40: the step performs the oldest enabled offer, and the others keep
their order. That the offers stand in one list is the model's choice (log 4), and a reserved word in IDLE counts as enabled, and
is refused (log 23). -/
def Obligations.StepPerformsTheOldestEnabledOffer : Prop :=
  ∀ (s : State) (e : Event TKind) (pre post : List (Event TKind)), s.offers = pre ++ e :: post →
    (∀ x ∈ pre, x.enabledIn s.phase = false) → e.enabledIn s.phase = true →
      step s = (match e.instr with
        | some i => exec i { s with offers := pre ++ post }
        | none => performEvent e { s with offers := pre ++ post })

/-- spec/20_memory.md section 6 (R67): a step takes the oldest of the commands the caller still offers, or none. -/
def Obligations.CommandsAreTakenInTheCallersOrder : Prop :=
  ∀ (s t : State), step s = .next t →
    let commands (es : List (Event TKind)) : List CommandWord :=
      es.filterMap (fun e => match e with | .accept w => some w | .xdone _ => none | .consume => none | .reset => none)
    (s.phase = .idle ∧ t.phase = .x1 ∧ commands s.offers ≠ [] ∧ commands t.offers = (commands s.offers).tail) ∨
    (¬ (s.phase = .idle ∧ t.phase = .x1) ∧ commands t.offers = commands s.offers)

/-- spec/30_encoding.md section 2 (R89), V8: a reserved word enables no event; the model refuses it, and no exchange and no
response follow. That the step meets the word and stops there, whatever is offered behind it, and does not pass it over for a
later offer is the model's reading (log 23, DEDUCED). -/
def Obligations.ReservedWordIsRefused : Prop :=
  ∀ (s : State) (w : CommandWord) (rest : List (Event TKind)), s.phase = .idle → s.offers = .accept w :: rest →
    w.extractLsb' 39 2 = 0b11#2 → step s = .refused (.reservedCommand w)

/-- R145: `Fail(k)` ends the command with COMM_ERR and `rsp_kind = k`, and no further exchange is performed. -/
def Obligations.TransportFailureEndsTheCommand : Prop :=
  ∀ (s : State) (k : TKind) (rest : List (Event TKind)), s.phase = .x1 ∨ s.phase = .x2 → s.offers = .xdone (.fail k) :: rest →
    step s = .next { s with
      offers := rest, phase := .resp, buf := none
      rspValid := true, rspStatus := some .commErr, rspData := some 0#32, rspKind := some k
      hist := s.hist ++ [.done (.fail k)] }

/-- spec/41_transactions.md section 1 (R143): a receive of fewer than five octets ends the command with PARSE_ERR, before
any strict check (R187); where P_RX_SHORT_ADMITTED is false it is no move of the transport (R61), and the model refuses it
(log 10). -/
def Obligations.ShortReceiveEndsTheCommand : Prop :=
  ∀ (s : State) (rx : Bytes5) (n : Fin 6) (rest : List (Event TKind)), s.phase = .x1 ∨ s.phase = .x2 → n.val < 5 →
    s.offers = .xdone (.ok rx n) :: rest →
      (s.par.rxShortAdmitted = true → step s = .next { s with
        offers := rest, phase := .resp, buf := some rx
        rspValid := true, rspStatus := some .parseErr, rspData := some 0#32, rspKind := none
        hist := s.hist ++ [.done (.ok rx n)] }) ∧
      (s.par.rxShortAdmitted = false → step s = .refused (.shortNotAdmitted n))

/-- R154: when CHIPINFO's exchange 1 fails, the command ends with that error and exchange 2 is not issued. -/
def Obligations.FailedFirstExchangeStopsChipinfo : Prop :=
  ∀ (s : State) (c : Command) (o : Answer TKind) (rest : List (Event TKind)), s.phase = .x1 → s.cmd = some c → c.op = .chipinfo →
    s.offers = .xdone o :: rest → o.admitted s.par = true →
    (∀ k, o = .fail k → ∃ t, step s = .next t ∧ t.phase = .resp ∧ t.rspStatus = some .commErr ∧ t.rspKind = some k ∧
      t.hist = s.hist ++ [.done o]) ∧
    (∀ rx n, o = .ok rx n → n.val < 5 → ∃ t, step s = .next t ∧ t.phase = .resp ∧ t.rspStatus = some .parseErr ∧
      t.hist = s.hist ++ [.done o]) ∧
    (∀ rx, o = .ok rx 5 → s.par.strictReplyCheck = true → rx.b0.extractLsb' 0 7 ≠ s.par.chipInfoAddr →
      ∃ t, step s = .next t ∧ t.phase = .resp ∧ t.rspStatus = some .unexpectedReply ∧ t.hist = s.hist ++ [.done o])

/-- spec/41_transactions.md section 2 (R156), enabled iff `phase = RESP`: CONSUME takes the response as it stands and makes
every register UNSPEC again. That the caller's record is a field is the model's choice (log 12), and that a state in which
nothing offered is enabled answers the fault noEventEnabled is its reading (log 5, DEDUCED). -/
def Obligations.ConsumeReturnsTheBlockToIdle : Prop :=
  (∀ (s : State) (rest : List (Event TKind)), s.phase = .resp → s.offers = .consume :: rest →
    step s = .next { s with
      offers := rest, phase := .idle, cmd := none, buf := none
      rspValid := false, rspStatus := none, rspData := none, rspKind := none
      taken := s.taken ++ [{ status := s.rspStatus, data := s.rspData, kind := s.rspKind }] }) ∧
  ∀ s : State, s.phase ≠ .resp → (∀ x ∈ s.offers, x = .consume) → step s = .fault (.noEventEnabled s.phase)

/-- R210: RESET is always enabled, in every phase and behind any offers that are not, and leaves the values of R39. Enabled is
`Event.enabledIn`, which counts a reserved word in IDLE (log 23). -/
def Obligations.ResetIsAlwaysEnabledAndClears : Prop :=
  ∀ (s : State) (pre rest : List (Event TKind)), s.offers = pre ++ .reset :: rest → (∀ x ∈ pre, x.enabledIn s.phase = false) →
    step s = .next { s with
      offers := pre ++ rest, phase := .idle, cmd := none, buf := none
      rspValid := false, rspStatus := none, rspData := none, rspKind := none
      hist := s.hist ++ [.reset] }

/-- spec/70_reset_and_hazards.md section 1 (R211), spec/10_state.md R36: after RESET no answer of the transport is
delivered before a new command: with nothing but answers and CONSUMEs offered, no event is enabled. That such a state answers
the fault noEventEnabled is the model's reading (log 5, DEDUCED). -/
def Obligations.NoAnswerIsDeliveredAfterReset : Prop :=
  ∀ (s t : State) (rest : List (Event TKind)), s.offers = .reset :: rest →
    (∀ x ∈ rest, x = .consume ∨ ∃ o, x = .xdone o) → step s = .next t → step t = .fault (.noEventEnabled .idle)

/-- spec/70_reset_and_hazards.md section 4 (R226), 93 U10: the machine is stuck exactly where no offered event is enabled;
in X1 and X2 that is the hang of a silent transport. There is no timeout step. That a stuck state answers the fault
noEventEnabled is the model's reading (log 5, DEDUCED). Enabled is `Event.enabledIn`, which counts a reserved word in IDLE,
where the step refuses it, though R36 says that such a word enables no event (log 23, DEDUCED). -/
def Obligations.StuckExactlyWhenNothingIsEnabled : Prop :=
  ∀ (s : State) (p : Phase),
    step s = .fault (.noEventEnabled p) ↔ p = s.phase ∧ ∀ x ∈ s.offers, x.enabledIn s.phase = false

/-- spec/10_state.md section 2 (R30) with the records of R37: the phase moves only along the table, and each move leaves
exactly its records: at most one exchange is issued by a step, and a second one only by CHIPINFO. -/
def Obligations.PhaseMovesOnlyAlongTheTable : Prop :=
  ∀ (s t : State), step s = .next t →
    (s.phase = .idle ∧ t.phase = .x1 ∧ ∃ tx, t.hist = s.hist ++ [.issue tx]) ∨
    (s.phase = .x1 ∧ t.phase = .resp ∧ ∃ o, t.hist = s.hist ++ [.done o]) ∨
    (s.phase = .x1 ∧ t.phase = .x2 ∧ s.cmd.map Command.op = some .chipinfo ∧
      ∃ o tx, t.hist = s.hist ++ [.done o, .issue tx]) ∨
    (s.phase = .x2 ∧ t.phase = .resp ∧ ∃ o, t.hist = s.hist ++ [.done o]) ∨
    (s.phase = .resp ∧ t.phase = .idle ∧ t.hist = s.hist) ∨
    (t.phase = .idle ∧ t.hist = s.hist ++ [.reset])

/-- R31 and R37: no event writes a parameter, and the history is never cleared; the caller's record grows by CONSUME only. -/
def Obligations.ParametersConstantAndHistoryGrows : Prop :=
  ∀ (s t : State), step s = .next t →
    t.par = s.par ∧ (∃ r, t.hist = s.hist ++ r) ∧
    (t.taken = s.taken ∨ s.phase = .resp ∧ t.phase = .idle ∧ t.taken = s.taken ++ [s.response])

/-- spec/70_reset_and_hazards.md section 4 (R226): in a good state with an exchange outstanding, a transport that answers
moves the command on: to its response, or to CHIPINFO's second exchange, from which the next answer ends it. -/
def Obligations.AnsweringTransportMovesTheCommandOn : Prop :=
  ∀ (s : State) (pre post : List (Event TKind)) (o : Answer TKind), s.Inv → s.phase = .x1 ∨ s.phase = .x2 →
    s.offers = pre ++ .xdone o :: post → (∀ x ∈ pre, x.enabledIn s.phase = false) → o.admitted s.par = true →
      ∃ t, step s = .next t ∧ t.offers = pre ++ post ∧ (t.phase = .resp ∨ s.phase = .x1 ∧ t.phase = .x2)

/-! ## Whole commands (spec/41_transactions.md section 2) -/

/-- R148 and R147: three events. RD issues a single exchange whose outgoing octets are `[addr, 0, 0, 0, 0]`, and the caller
takes the payload of the decoded reply. -/
def Obligations.WholeReadReturnsTheReplyPayload : Prop :=
  ∀ (s : State) (a : Address) (d : Payload) (rx : Bytes5) (rest : List (Event TKind)), s.Inv → s.phase = .idle →
    s.par.strictReplyCheck = false →
    s.offers = .accept (0b00#2 ++ a ++ d) :: .xdone (.ok rx 5) :: .consume :: rest →
      Host.Core.run Sys2Proof.core 3 s = .next { s with
        offers := rest
        hist := s.hist ++ [.issue (encodeFrame { direction := .read, address := a, payload := 0#32 }), .done (.ok rx 5)]
        taken := s.taken ++ [{ status := some .ok, data := some (rx.b1 ++ rx.b2 ++ rx.b3 ++ rx.b4), kind := none }] }

/-- R149: three events. WR issues a single exchange, the write of the value, and the caller takes OK with data 0 whatever
the reply is. -/
def Obligations.WholeWriteReturnsOk : Prop :=
  ∀ (s : State) (a : Address) (d : Payload) (rx : Bytes5) (rest : List (Event TKind)), s.Inv → s.phase = .idle →
    s.par.strictReplyCheck = false →
    s.offers = .accept (0b01#2 ++ a ++ d) :: .xdone (.ok rx 5) :: .consume :: rest →
      Host.Core.run Sys2Proof.core 3 s = .next { s with
        offers := rest
        hist := s.hist ++ [.issue (encodeFrame { direction := .write, address := a, payload := d }), .done (.ok rx 5)]
        taken := s.taken ++ [{ status := some .ok, data := some 0#32, kind := none }] }

/-- R152, R153, R155, L1-8: four events. CHIPINFO issues exactly two exchanges in order, the selector's write and the data
register's read, and the caller takes the second reply's payload, in one response. -/
def Obligations.WholeChipinfoReturnsTheSecondPayload : Prop :=
  ∀ (s : State) (a : Address) (d : Payload) (rx1 rx2 : Bytes5) (rest : List (Event TKind)), s.Inv → s.phase = .idle →
    s.par.strictReplyCheck = false →
    s.offers = .accept (0b10#2 ++ a ++ d) :: .xdone (.ok rx1 5) :: .xdone (.ok rx2 5) :: .consume :: rest →
      Host.Core.run Sys2Proof.core 4 s = .next { s with
        offers := rest
        hist := s.hist ++
          [.issue (encodeFrame { direction := .write, address := s.par.chipInfoAddr, payload := d }), .done (.ok rx1 5),
           .issue (encodeFrame { direction := .read, address := s.par.chipInfoData, payload := 0#32 }), .done (.ok rx2 5)]
        taken := s.taken ++ [{ status := some .ok, data := some (rx2.b1 ++ rx2.b2 ++ rx2.b3 ++ rx2.b4), kind := none }] }

/-! ## Responses and ports -/

/-- R150 and R185: `respond` writes the response registers and the phase and nothing else, and an error is exactly a response
with its code, data 0 and its information: nothing is saved. -/
def Obligations.RespondAndRaiseWriteTheResponseOnly : Prop :=
  (∀ (s : State) (st : Status) (v : Payload) (k : Option TKind), s.respond st v k =
    { s with rspStatus := some st, rspData := some v, rspKind := k, rspValid := true, phase := .resp }) ∧
  ∀ (s : State) (k : TKind),
    s.raise (.communication k) = s.respond .commErr 0#32 (some k) ∧ s.raise .parse = s.respond .parseErr 0#32 none ∧
    s.raise .unexpectedReply = s.respond .unexpectedReply 0#32 none

/-- R21: when the caller may read the response registers. A read faults while `rsp_valid` is 0 and where the field is UNSPEC,
and the kind is readable only with COMM_ERR; every read that is allowed answers the field's value, and in a good state in RESP
the caller's reads are allowed. -/
def Obligations.ResponseReadsFollowTheReadingRule : Prop :=
  (∀ s : State,
    (s.rspValid = false → s.readRspStatus = .error (.readUnspec .rspStatus) ∧
      s.readRspData = .error (.readUnspec .rspData) ∧ s.readRspKind = .error (.readUnspec .rspKind)) ∧
    (s.rspStatus ≠ some .commErr → s.readRspKind = .error (.readUnspec .rspKind)) ∧
    (s.rspStatus = none → s.readRspStatus = .error (.readUnspec .rspStatus)) ∧
    (s.rspData = none → s.readRspData = .error (.readUnspec .rspData)) ∧
    (s.rspKind = none → s.readRspKind = .error (.readUnspec .rspKind)) ∧
    (s.buf = none → s.readTx = .error (.readUnspec .buf)) ∧ (s.cmd = none → s.readCmd = .error (.readUnspec .cmd)) ∧
    (∀ st, s.rspValid = true → s.rspStatus = some st → s.readRspStatus = .ok st) ∧
    (∀ d, s.rspValid = true → s.rspData = some d → s.readRspData = .ok d) ∧
    (∀ k, s.rspValid = true → s.rspStatus = some .commErr → s.rspKind = some k → s.readRspKind = .ok k) ∧
    (∀ b, s.buf = some b → s.readTx = .ok b) ∧ ∀ c, s.cmd = some c → s.readCmd = .ok c) ∧
  ∀ s : State, s.Good → s.phase = .resp → ∃ (st : Status) (d : Payload),
    s.rspStatus = some st ∧ s.rspData = some d ∧ s.readRspStatus = .ok st ∧ s.readRspData = .ok d ∧
    (st = .commErr → ∃ k, s.rspKind = some k ∧ s.readRspKind = .ok k)

/-! ## Reset and invariants -/

/-- R39, R210, R213: what RESET writes, from any state, and the launch state: the same values with an empty history, for any
parameters. RESET is always enabled: enabled is `Event.enabledIn`, which differs from R36 for a reserved command word alone
(log 23) and for RESET not at all. -/
def Obligations.LaunchIsTheStateAfterReset : Prop :=
  (∀ s : State, s.rst = { s with
    phase := .idle, rspValid := false, rspStatus := none, rspData := none, rspKind := none, cmd := none, buf := none
    hist := s.hist ++ [.reset] }) ∧
  (∀ (p : Params) (s : State), s.par = p →
    (State.launch p).par = s.rst.par ∧ (State.launch p).phase = s.rst.phase ∧ (State.launch p).rspValid = s.rst.rspValid ∧
    (State.launch p).rspStatus = s.rst.rspStatus ∧ (State.launch p).rspData = s.rst.rspData ∧
    (State.launch p).rspKind = s.rst.rspKind ∧ (State.launch p).cmd = s.rst.cmd ∧ (State.launch p).buf = s.rst.buf ∧
    (State.launch p).hist = []) ∧
  ∀ ph : Phase, (Event.reset : Event TKind).enabledIn ph = true

/-- The launch state is good, for any parameters, and so is the state of the host's reset. Its first event is an ACCEPT or a
RESET (R213): enabled is `Event.enabledIn`, which counts a reserved word in IDLE, where the step refuses it (log 23, DEDUCED). -/
def Obligations.LaunchStateIsGood : Prop :=
  (∀ p : Params, (State.launch p).Good) ∧ State.reset.Good ∧
  ∀ (p : Params) (e : Event TKind), e.enabledIn (State.launch p).phase = true → (∃ w, e = .accept w) ∨ e = .reset

/-- spec/41_transactions.md section 3 (R163): every step keeps the five invariants. -/
def Obligations.EveryStepKeepsTheFiveInvariants : Prop :=
  ∀ (s t : State), s.Inv → step s = .next t → t.Inv

/-- spec/20_memory.md section 6 (R66) and spec/10_state.md R24: every step keeps the history in order, `phase` true to it,
and the outstanding request's frame in `buf`. -/
def Obligations.EveryStepKeepsOneExchangeAtATime : Prop :=
  ∀ (s t : State), s.ExchangeInv → step s = .next t → t.ExchangeInv

/-- spec/10_state.md R26, spec/60_exceptions.md R181 and spec/41_transactions.md R151: every step keeps what a held response
may look like. -/
def Obligations.EveryStepKeepsTheResponseRules : Prop :=
  ∀ (s t : State), s.ResponseInv → step s = .next t → t.ResponseInv

/-- In a state that satisfies R163 a step moves on, or stops for one of three reasons that come from outside the block:
nothing enabled is offered, a reserved word is offered, or a short outcome that is not admitted. No register is read while
UNSPEC (R21), and XDONE always has its row. How the model answers each is its reading: the fault noEventEnabled is log 5
(DEDUCED), that the step meets a reserved word and refuses it is log 23 (DEDUCED), and the refusal of the outcome is log 10
(DEDUCED). -/
def Obligations.GoodStatesStopForOutsideReasonsOnly : Prop :=
  ∀ s : State, s.Inv →
    (∃ t, step s = .next t) ∨ step s = .fault (.noEventEnabled s.phase) ∨
    (∃ w, Event.accept w ∈ s.offers ∧ w.wellFormed = false ∧ step s = .refused (.reservedCommand w)) ∨
    (∃ rx n, Event.xdone (.ok rx n) ∈ s.offers ∧ n.val < 5 ∧ s.par.rxShortAdmitted = false ∧
      step s = .refused (.shortNotAdmitted n))

/-- Every instruction's table word, placed for the fetch in the reset state (log 8), is what the very next step runs: that step is
`exec` of the instruction at the state without the offer, to a next state in which a command has issued its exchange and a frame
has completed a read. How the table's words are read is log 9 (DEDUCED). -/
def Obligations.EveryTableWordRunsFirstAfterReset : Prop :=
  ∀ i : Instr,
    let s : State := State.reset.withFetchWord (encode i).bits (encode i).tableWord
    step s = exec i { s with offers := [] } ∧
    ∃ t : State, step s = .next t ∧ t.offers = [] ∧
      match i with
      | .rd _ _ | .wr _ _ | .chipinfo _ _  => t.phase = .x1 ∧ t.hist.length = 1
      | .frameRd _ _ | .frameWr _ _        => t.phase = .resp ∧ t.hist.length = 2

/-! ## Codes, kinds and a dropped command -/

/-- R22, R88, R181 and the row `cmd_ready` of R40: the codes of `phase`, of `cmd.op` and of `rsp_status` for each error and for
success, and when the command port is ready. -/
def Obligations.CodesAndReadyAreTheTables : Prop :=
  (∀ s : State,
    (s.phase.code = 0b00#2 ↔ s.phase = .idle) ∧ (s.phase.code = 0b01#2 ↔ s.phase = .x1) ∧
    (s.phase.code = 0b10#2 ↔ s.phase = .x2) ∧ (s.phase.code = 0b11#2 ↔ s.phase = .resp) ∧
    (s.cmdReady = true ↔ s.phase.code = 0b00#2)) ∧
  (∀ (s : State) (v : Payload) (k : TKind),
    (s.respond .ok v none).rspStatus.map Status.code = some 0b00#2 ∧
    (s.raise (.communication k)).rspStatus.map Status.code = some 0b01#2 ∧
    (s.raise .parse).rspStatus.map Status.code = some 0b10#2 ∧
    (s.raise .unexpectedReply).rspStatus.map Status.code = some 0b11#2) ∧
  ∀ (s : State) (a : Address) (d : Payload),
    (s.accept .rd a d).cmd.map (fun c => c.op.code) = some 0b00#2 ∧
    (s.accept .wr a d).cmd.map (fun c => c.op.code) = some 0b01#2 ∧
    (s.accept .chipinfo a d).cmd.map (fun c => c.op.code) = some 0b10#2

/-- R8 and R182: TKind is any type, and "the block does not interpret it". The machine at a type commutes with every relabelling
of the kinds, into the same type or another one, and the host's machine is the one at its own TKind (log 3). -/
def Obligations.KindsAreCarriedAndNeverInterpreted : Prop :=
  (∀ (K L : Type) (f : K → L) (s : State.Of K),
    (∀ i : Instr, execAt L i (s.mapKind f) = mapNext (State.Of.mapKind f) (execAt K i s)) ∧
    stepAt L (s.mapKind f) = mapNext (State.Of.mapKind f) (stepAt K s)) ∧
  (∀ (i : Instr) (s : State), exec i s = execAt TKind i s) ∧ ∀ s : State, step s = stepAt TKind s

/-- R218: a caller that drops a command presented while `cmd_ready = 0` loses it. The block does not change, the command is gone
from what the caller offers, so no step takes it (CommandsAreTakenInTheCallersOrder), and every step is as it was but for that
command. With `cmd_ready = 1` there is nothing to drop. That dropping is the caller's move between steps is log 26. -/
def Obligations.DroppedCommandIsLost : Prop :=
  (∀ s : State, s.cmdReady = true → s.dropCommand = s) ∧
  ∀ s : State, s.cmdReady = false →
    (∀ (w : CommandWord) (pre post : List (Event TKind)), s.offers = pre ++ .accept w :: post → (∀ v, Event.accept v ∉ pre) →
      s.dropCommand = { s with offers := pre ++ post }) ∧
    ((∀ v, Event.accept v ∉ s.offers) → s.dropCommand = s) ∧
    step s.dropCommand = mapNext (fun t => { t with offers := dropFirstCommand t.offers }) (step s)
end

