-- ==== Sys2Proof/Laws/State.lean ====
section
/-! SUPPORT. One lemma per field and per update of the state, each true by rfl, so that no later proof unfolds a record
update; and what the caller's withdrawal of a command is, by the phase. -/

namespace Sys2Proof.Machine

variable {K : Type} (s : State.Of K)

/-! ### `State.Of.setPhase` -/

@[simp] theorem State.Of.setPhase_par (p : Phase) : (s.setPhase p).par = s.par := rfl
@[simp] theorem State.Of.setPhase_phase (p : Phase) : (s.setPhase p).phase = p := rfl
@[simp] theorem State.Of.setPhase_cmd (p : Phase) : (s.setPhase p).cmd = s.cmd := rfl
@[simp] theorem State.Of.setPhase_buf (p : Phase) : (s.setPhase p).buf = s.buf := rfl
@[simp] theorem State.Of.setPhase_rspValid (p : Phase) : (s.setPhase p).rspValid = s.rspValid := rfl
@[simp] theorem State.Of.setPhase_rspStatus (p : Phase) : (s.setPhase p).rspStatus = s.rspStatus := rfl
@[simp] theorem State.Of.setPhase_rspData (p : Phase) : (s.setPhase p).rspData = s.rspData := rfl
@[simp] theorem State.Of.setPhase_rspKind (p : Phase) : (s.setPhase p).rspKind = s.rspKind := rfl
@[simp] theorem State.Of.setPhase_hist (p : Phase) : (s.setPhase p).hist = s.hist := rfl
@[simp] theorem State.Of.setPhase_offers (p : Phase) : (s.setPhase p).offers = s.offers := rfl
@[simp] theorem State.Of.setPhase_taken (p : Phase) : (s.setPhase p).taken = s.taken := rfl

/-! ### `State.Of.setCmd` -/

@[simp] theorem State.Of.setCmd_par (c : Option Command) : (s.setCmd c).par = s.par := rfl
@[simp] theorem State.Of.setCmd_phase (c : Option Command) : (s.setCmd c).phase = s.phase := rfl
@[simp] theorem State.Of.setCmd_cmd (c : Option Command) : (s.setCmd c).cmd = c := rfl
@[simp] theorem State.Of.setCmd_buf (c : Option Command) : (s.setCmd c).buf = s.buf := rfl
@[simp] theorem State.Of.setCmd_rspValid (c : Option Command) : (s.setCmd c).rspValid = s.rspValid := rfl
@[simp] theorem State.Of.setCmd_rspStatus (c : Option Command) : (s.setCmd c).rspStatus = s.rspStatus := rfl
@[simp] theorem State.Of.setCmd_rspData (c : Option Command) : (s.setCmd c).rspData = s.rspData := rfl
@[simp] theorem State.Of.setCmd_rspKind (c : Option Command) : (s.setCmd c).rspKind = s.rspKind := rfl
@[simp] theorem State.Of.setCmd_hist (c : Option Command) : (s.setCmd c).hist = s.hist := rfl
@[simp] theorem State.Of.setCmd_offers (c : Option Command) : (s.setCmd c).offers = s.offers := rfl
@[simp] theorem State.Of.setCmd_taken (c : Option Command) : (s.setCmd c).taken = s.taken := rfl

/-! ### `State.Of.setBuf` -/

@[simp] theorem State.Of.setBuf_par (b : Option Bytes5) : (s.setBuf b).par = s.par := rfl
@[simp] theorem State.Of.setBuf_phase (b : Option Bytes5) : (s.setBuf b).phase = s.phase := rfl
@[simp] theorem State.Of.setBuf_cmd (b : Option Bytes5) : (s.setBuf b).cmd = s.cmd := rfl
@[simp] theorem State.Of.setBuf_buf (b : Option Bytes5) : (s.setBuf b).buf = b := rfl
@[simp] theorem State.Of.setBuf_rspValid (b : Option Bytes5) : (s.setBuf b).rspValid = s.rspValid := rfl
@[simp] theorem State.Of.setBuf_rspStatus (b : Option Bytes5) : (s.setBuf b).rspStatus = s.rspStatus := rfl
@[simp] theorem State.Of.setBuf_rspData (b : Option Bytes5) : (s.setBuf b).rspData = s.rspData := rfl
@[simp] theorem State.Of.setBuf_rspKind (b : Option Bytes5) : (s.setBuf b).rspKind = s.rspKind := rfl
@[simp] theorem State.Of.setBuf_hist (b : Option Bytes5) : (s.setBuf b).hist = s.hist := rfl
@[simp] theorem State.Of.setBuf_offers (b : Option Bytes5) : (s.setBuf b).offers = s.offers := rfl
@[simp] theorem State.Of.setBuf_taken (b : Option Bytes5) : (s.setBuf b).taken = s.taken := rfl

/-! ### `State.Of.setRsp` -/

@[simp] theorem State.Of.setRsp_par (v : Bool) (st : Option Status) (d : Option Payload) (k : Option K) :
    (s.setRsp v st d k).par = s.par := rfl
@[simp] theorem State.Of.setRsp_phase (v : Bool) (st : Option Status) (d : Option Payload) (k : Option K) :
    (s.setRsp v st d k).phase = s.phase := rfl
@[simp] theorem State.Of.setRsp_cmd (v : Bool) (st : Option Status) (d : Option Payload) (k : Option K) :
    (s.setRsp v st d k).cmd = s.cmd := rfl
@[simp] theorem State.Of.setRsp_buf (v : Bool) (st : Option Status) (d : Option Payload) (k : Option K) :
    (s.setRsp v st d k).buf = s.buf := rfl
@[simp] theorem State.Of.setRsp_rspValid (v : Bool) (st : Option Status) (d : Option Payload) (k : Option K) :
    (s.setRsp v st d k).rspValid = v := rfl
@[simp] theorem State.Of.setRsp_rspStatus (v : Bool) (st : Option Status) (d : Option Payload) (k : Option K) :
    (s.setRsp v st d k).rspStatus = st := rfl
@[simp] theorem State.Of.setRsp_rspData (v : Bool) (st : Option Status) (d : Option Payload) (k : Option K) :
    (s.setRsp v st d k).rspData = d := rfl
@[simp] theorem State.Of.setRsp_rspKind (v : Bool) (st : Option Status) (d : Option Payload) (k : Option K) :
    (s.setRsp v st d k).rspKind = k := rfl
@[simp] theorem State.Of.setRsp_hist (v : Bool) (st : Option Status) (d : Option Payload) (k : Option K) :
    (s.setRsp v st d k).hist = s.hist := rfl
@[simp] theorem State.Of.setRsp_offers (v : Bool) (st : Option Status) (d : Option Payload) (k : Option K) :
    (s.setRsp v st d k).offers = s.offers := rfl
@[simp] theorem State.Of.setRsp_taken (v : Bool) (st : Option Status) (d : Option Payload) (k : Option K) :
    (s.setRsp v st d k).taken = s.taken := rfl

/-! ### `State.Of.log` -/

@[simp] theorem State.Of.log_par (r : Record K) : (s.log r).par = s.par := rfl
@[simp] theorem State.Of.log_phase (r : Record K) : (s.log r).phase = s.phase := rfl
@[simp] theorem State.Of.log_cmd (r : Record K) : (s.log r).cmd = s.cmd := rfl
@[simp] theorem State.Of.log_buf (r : Record K) : (s.log r).buf = s.buf := rfl
@[simp] theorem State.Of.log_rspValid (r : Record K) : (s.log r).rspValid = s.rspValid := rfl
@[simp] theorem State.Of.log_rspStatus (r : Record K) : (s.log r).rspStatus = s.rspStatus := rfl
@[simp] theorem State.Of.log_rspData (r : Record K) : (s.log r).rspData = s.rspData := rfl
@[simp] theorem State.Of.log_rspKind (r : Record K) : (s.log r).rspKind = s.rspKind := rfl
@[simp] theorem State.Of.log_hist (r : Record K) : (s.log r).hist = s.hist ++ [r] := rfl
@[simp] theorem State.Of.log_offers (r : Record K) : (s.log r).offers = s.offers := rfl
@[simp] theorem State.Of.log_taken (r : Record K) : (s.log r).taken = s.taken := rfl

/-! ### `State.Of.setOffers` -/

@[simp] theorem State.Of.setOffers_par (es : List (Event K)) : (s.setOffers es).par = s.par := rfl
@[simp] theorem State.Of.setOffers_phase (es : List (Event K)) : (s.setOffers es).phase = s.phase := rfl
@[simp] theorem State.Of.setOffers_cmd (es : List (Event K)) : (s.setOffers es).cmd = s.cmd := rfl
@[simp] theorem State.Of.setOffers_buf (es : List (Event K)) : (s.setOffers es).buf = s.buf := rfl
@[simp] theorem State.Of.setOffers_rspValid (es : List (Event K)) : (s.setOffers es).rspValid = s.rspValid := rfl
@[simp] theorem State.Of.setOffers_rspStatus (es : List (Event K)) : (s.setOffers es).rspStatus = s.rspStatus := rfl
@[simp] theorem State.Of.setOffers_rspData (es : List (Event K)) : (s.setOffers es).rspData = s.rspData := rfl
@[simp] theorem State.Of.setOffers_rspKind (es : List (Event K)) : (s.setOffers es).rspKind = s.rspKind := rfl
@[simp] theorem State.Of.setOffers_hist (es : List (Event K)) : (s.setOffers es).hist = s.hist := rfl
@[simp] theorem State.Of.setOffers_offers (es : List (Event K)) : (s.setOffers es).offers = es := rfl
@[simp] theorem State.Of.setOffers_taken (es : List (Event K)) : (s.setOffers es).taken = s.taken := rfl

/-! ### `State.Of.take` -/

@[simp] theorem State.Of.take_par (r : Response K) : (s.take r).par = s.par := rfl
@[simp] theorem State.Of.take_phase (r : Response K) : (s.take r).phase = s.phase := rfl
@[simp] theorem State.Of.take_cmd (r : Response K) : (s.take r).cmd = s.cmd := rfl
@[simp] theorem State.Of.take_buf (r : Response K) : (s.take r).buf = s.buf := rfl
@[simp] theorem State.Of.take_rspValid (r : Response K) : (s.take r).rspValid = s.rspValid := rfl
@[simp] theorem State.Of.take_rspStatus (r : Response K) : (s.take r).rspStatus = s.rspStatus := rfl
@[simp] theorem State.Of.take_rspData (r : Response K) : (s.take r).rspData = s.rspData := rfl
@[simp] theorem State.Of.take_rspKind (r : Response K) : (s.take r).rspKind = s.rspKind := rfl
@[simp] theorem State.Of.take_hist (r : Response K) : (s.take r).hist = s.hist := rfl
@[simp] theorem State.Of.take_offers (r : Response K) : (s.take r).offers = s.offers := rfl
@[simp] theorem State.Of.take_taken (r : Response K) : (s.take r).taken = s.taken ++ [r] := rfl

/-! ### `State.Of.hold` -/

@[simp] theorem State.Of.hold_par (e : Event K) : (s.hold e).par = s.par := rfl
@[simp] theorem State.Of.hold_phase (e : Event K) : (s.hold e).phase = s.phase := rfl
@[simp] theorem State.Of.hold_cmd (e : Event K) : (s.hold e).cmd = s.cmd := rfl
@[simp] theorem State.Of.hold_buf (e : Event K) : (s.hold e).buf = s.buf := rfl
@[simp] theorem State.Of.hold_rspValid (e : Event K) : (s.hold e).rspValid = s.rspValid := rfl
@[simp] theorem State.Of.hold_rspStatus (e : Event K) : (s.hold e).rspStatus = s.rspStatus := rfl
@[simp] theorem State.Of.hold_rspData (e : Event K) : (s.hold e).rspData = s.rspData := rfl
@[simp] theorem State.Of.hold_rspKind (e : Event K) : (s.hold e).rspKind = s.rspKind := rfl
@[simp] theorem State.Of.hold_hist (e : Event K) : (s.hold e).hist = s.hist := rfl
@[simp] theorem State.Of.hold_offers (e : Event K) : (s.hold e).offers = e :: s.offers := rfl
@[simp] theorem State.Of.hold_taken (e : Event K) : (s.hold e).taken = s.taken := rfl

/-! ### `State.Of.issue` -/

@[simp] theorem State.Of.issue_par (f : Frame) : (s.issue f).par = s.par := rfl
@[simp] theorem State.Of.issue_phase (f : Frame) : (s.issue f).phase = s.phase := rfl
@[simp] theorem State.Of.issue_cmd (f : Frame) : (s.issue f).cmd = s.cmd := rfl
@[simp] theorem State.Of.issue_buf (f : Frame) : (s.issue f).buf = some (encodeFrame f) := rfl
@[simp] theorem State.Of.issue_rspValid (f : Frame) : (s.issue f).rspValid = s.rspValid := rfl
@[simp] theorem State.Of.issue_rspStatus (f : Frame) : (s.issue f).rspStatus = s.rspStatus := rfl
@[simp] theorem State.Of.issue_rspData (f : Frame) : (s.issue f).rspData = s.rspData := rfl
@[simp] theorem State.Of.issue_rspKind (f : Frame) : (s.issue f).rspKind = s.rspKind := rfl
@[simp] theorem State.Of.issue_hist (f : Frame) : (s.issue f).hist = s.hist ++ [.issue (encodeFrame f)] := rfl
@[simp] theorem State.Of.issue_offers (f : Frame) : (s.issue f).offers = s.offers := rfl
@[simp] theorem State.Of.issue_taken (f : Frame) : (s.issue f).taken = s.taken := rfl

/-! ### `State.Of.respond` -/

@[simp] theorem State.Of.respond_par (st : Status) (d : Payload) (k : Option K) : (s.respond st d k).par = s.par := rfl
@[simp] theorem State.Of.respond_phase (st : Status) (d : Payload) (k : Option K) : (s.respond st d k).phase = .resp := rfl
@[simp] theorem State.Of.respond_cmd (st : Status) (d : Payload) (k : Option K) : (s.respond st d k).cmd = s.cmd := rfl
@[simp] theorem State.Of.respond_buf (st : Status) (d : Payload) (k : Option K) : (s.respond st d k).buf = s.buf := rfl
@[simp] theorem State.Of.respond_rspValid (st : Status) (d : Payload) (k : Option K) :
    (s.respond st d k).rspValid = true := rfl
@[simp] theorem State.Of.respond_rspStatus (st : Status) (d : Payload) (k : Option K) :
    (s.respond st d k).rspStatus = some st := rfl
@[simp] theorem State.Of.respond_rspData (st : Status) (d : Payload) (k : Option K) :
    (s.respond st d k).rspData = some d := rfl
@[simp] theorem State.Of.respond_rspKind (st : Status) (d : Payload) (k : Option K) : (s.respond st d k).rspKind = k := rfl
@[simp] theorem State.Of.respond_hist (st : Status) (d : Payload) (k : Option K) : (s.respond st d k).hist = s.hist := rfl
@[simp] theorem State.Of.respond_offers (st : Status) (d : Payload) (k : Option K) :
    (s.respond st d k).offers = s.offers := rfl
@[simp] theorem State.Of.respond_taken (st : Status) (d : Payload) (k : Option K) :
    (s.respond st d k).taken = s.taken := rfl

/-! ### `State.Of.raise` -/

@[simp] theorem State.Of.raise_par (e : DriverError K) : (s.raise e).par = s.par := rfl
@[simp] theorem State.Of.raise_phase (e : DriverError K) : (s.raise e).phase = .resp := rfl
@[simp] theorem State.Of.raise_cmd (e : DriverError K) : (s.raise e).cmd = s.cmd := rfl
@[simp] theorem State.Of.raise_buf (e : DriverError K) : (s.raise e).buf = s.buf := rfl
@[simp] theorem State.Of.raise_rspValid (e : DriverError K) : (s.raise e).rspValid = true := rfl
@[simp] theorem State.Of.raise_rspStatus (e : DriverError K) : (s.raise e).rspStatus = some e.status := rfl
@[simp] theorem State.Of.raise_rspData (e : DriverError K) : (s.raise e).rspData = some 0#32 := rfl
@[simp] theorem State.Of.raise_rspKind (e : DriverError K) : (s.raise e).rspKind = e.info := rfl
@[simp] theorem State.Of.raise_hist (e : DriverError K) : (s.raise e).hist = s.hist := rfl
@[simp] theorem State.Of.raise_offers (e : DriverError K) : (s.raise e).offers = s.offers := rfl
@[simp] theorem State.Of.raise_taken (e : DriverError K) : (s.raise e).taken = s.taken := rfl

/-! ### `State.Of.clear` -/

@[simp] theorem State.Of.clear_par : (s.clear).par = s.par := rfl
@[simp] theorem State.Of.clear_phase : (s.clear).phase = .idle := rfl
@[simp] theorem State.Of.clear_cmd : (s.clear).cmd = none := rfl
@[simp] theorem State.Of.clear_buf : (s.clear).buf = none := rfl
@[simp] theorem State.Of.clear_rspValid : (s.clear).rspValid = false := rfl
@[simp] theorem State.Of.clear_rspStatus : (s.clear).rspStatus = none := rfl
@[simp] theorem State.Of.clear_rspData : (s.clear).rspData = none := rfl
@[simp] theorem State.Of.clear_rspKind : (s.clear).rspKind = none := rfl
@[simp] theorem State.Of.clear_hist : (s.clear).hist = s.hist := rfl
@[simp] theorem State.Of.clear_offers : (s.clear).offers = s.offers := rfl
@[simp] theorem State.Of.clear_taken : (s.clear).taken = s.taken := rfl

/-! ### `State.Of.consume` -/

@[simp] theorem State.Of.consume_par : (s.consume).par = s.par := rfl
@[simp] theorem State.Of.consume_phase : (s.consume).phase = .idle := rfl
@[simp] theorem State.Of.consume_cmd : (s.consume).cmd = none := rfl
@[simp] theorem State.Of.consume_buf : (s.consume).buf = none := rfl
@[simp] theorem State.Of.consume_rspValid : (s.consume).rspValid = false := rfl
@[simp] theorem State.Of.consume_rspStatus : (s.consume).rspStatus = none := rfl
@[simp] theorem State.Of.consume_rspData : (s.consume).rspData = none := rfl
@[simp] theorem State.Of.consume_rspKind : (s.consume).rspKind = none := rfl
@[simp] theorem State.Of.consume_hist : (s.consume).hist = s.hist := rfl
@[simp] theorem State.Of.consume_offers : (s.consume).offers = s.offers := rfl
@[simp] theorem State.Of.consume_taken : (s.consume).taken = s.taken ++ [s.response] := rfl

/-! ### `State.Of.rst` -/

@[simp] theorem State.Of.rst_par : (s.rst).par = s.par := rfl
@[simp] theorem State.Of.rst_phase : (s.rst).phase = .idle := rfl
@[simp] theorem State.Of.rst_cmd : (s.rst).cmd = none := rfl
@[simp] theorem State.Of.rst_buf : (s.rst).buf = none := rfl
@[simp] theorem State.Of.rst_rspValid : (s.rst).rspValid = false := rfl
@[simp] theorem State.Of.rst_rspStatus : (s.rst).rspStatus = none := rfl
@[simp] theorem State.Of.rst_rspData : (s.rst).rspData = none := rfl
@[simp] theorem State.Of.rst_rspKind : (s.rst).rspKind = none := rfl
@[simp] theorem State.Of.rst_hist : (s.rst).hist = s.hist ++ [.reset] := rfl
@[simp] theorem State.Of.rst_offers : (s.rst).offers = s.offers := rfl
@[simp] theorem State.Of.rst_taken : (s.rst).taken = s.taken := rfl

/-! ### `State.Of.accept` -/

@[simp] theorem State.Of.accept_par (op : Op) (a : Address) (d : Payload) : (s.accept op a d).par = s.par := rfl
@[simp] theorem State.Of.accept_phase (op : Op) (a : Address) (d : Payload) : (s.accept op a d).phase = .x1 := rfl
@[simp] theorem State.Of.accept_cmd (op : Op) (a : Address) (d : Payload) :
    (s.accept op a d).cmd = some { op := op, addr := a, data := d } := rfl
@[simp] theorem State.Of.accept_buf (op : Op) (a : Address) (d : Payload) :
    (s.accept op a d).buf = some (encodeFrame (firstRequest s.par op a d)) := rfl
@[simp] theorem State.Of.accept_rspValid (op : Op) (a : Address) (d : Payload) : (s.accept op a d).rspValid = s.rspValid := rfl
@[simp] theorem State.Of.accept_rspStatus (op : Op) (a : Address) (d : Payload) :
    (s.accept op a d).rspStatus = s.rspStatus := rfl
@[simp] theorem State.Of.accept_rspData (op : Op) (a : Address) (d : Payload) : (s.accept op a d).rspData = s.rspData := rfl
@[simp] theorem State.Of.accept_rspKind (op : Op) (a : Address) (d : Payload) : (s.accept op a d).rspKind = s.rspKind := rfl
@[simp] theorem State.Of.accept_hist (op : Op) (a : Address) (d : Payload) :
    (s.accept op a d).hist = s.hist ++ [.issue (encodeFrame (firstRequest s.par op a d))] := rfl
@[simp] theorem State.Of.accept_offers (op : Op) (a : Address) (d : Payload) : (s.accept op a d).offers = s.offers := rfl
@[simp] theorem State.Of.accept_taken (op : Op) (a : Address) (d : Payload) : (s.accept op a d).taken = s.taken := rfl

/-! ### `State.Of.dropCommand` -/

theorem State.Of.dropCommand_ready (h : s.cmdReady = true) : s.dropCommand = s := by simp [State.Of.dropCommand, h]

theorem State.Of.dropCommand_busy (h : s.cmdReady = false) : s.dropCommand = s.setOffers (dropFirstCommand s.offers) := by
  simp [State.Of.dropCommand, h]

/-! ### `State.Of.mapKind` -/

variable {L : Type} (f : K → L)

@[simp] theorem State.Of.mapKind_par : (s.mapKind f).par = s.par := rfl
@[simp] theorem State.Of.mapKind_phase : (s.mapKind f).phase = s.phase := rfl
@[simp] theorem State.Of.mapKind_cmd : (s.mapKind f).cmd = s.cmd := rfl
@[simp] theorem State.Of.mapKind_buf : (s.mapKind f).buf = s.buf := rfl
@[simp] theorem State.Of.mapKind_rspValid : (s.mapKind f).rspValid = s.rspValid := rfl
@[simp] theorem State.Of.mapKind_rspStatus : (s.mapKind f).rspStatus = s.rspStatus := rfl
@[simp] theorem State.Of.mapKind_rspData : (s.mapKind f).rspData = s.rspData := rfl
@[simp] theorem State.Of.mapKind_rspKind : (s.mapKind f).rspKind = s.rspKind.map f := rfl
@[simp] theorem State.Of.mapKind_hist : (s.mapKind f).hist = s.hist.map (Record.mapKind f) := rfl
@[simp] theorem State.Of.mapKind_offers : (s.mapKind f).offers = s.offers.map (Event.mapKind f) := rfl
@[simp] theorem State.Of.mapKind_taken : (s.mapKind f).taken = s.taken.map (Response.mapKind f) := rfl

end Sys2Proof.Machine
end

