-- ==== Sys2Proof/Laws/Ops.lean ====
section
/-! SUPPORT. What each shared operation can answer, said once: the inversion lemmas of the offers' selection, of a presented
command, of an exchange's completion, and of a step. Later proofs cite these and unfold nothing. -/

namespace Sys2Proof.Machine

variable {K : Type}

/-! ## The selection of the next offer -/

/-- The selected event is the oldest enabled one, and the other offers stay in their order. -/
theorem nextOffer_some {p : Phase} {es : List (Event K)} {e : Event K} {rest : List (Event K)} (h : nextOffer p es = some (e, rest)) :
    ∃ pre post, es = pre ++ e :: post ∧ rest = pre ++ post ∧ e.enabledIn p = true ∧
      ∀ x ∈ pre, x.enabledIn p = false := by
  induction es generalizing rest with
  | nil => simp [nextOffer] at h
  | cons x xs ih =>
    rw [nextOffer] at h
    split at h
    · rename_i hx
      obtain ⟨rfl, rfl⟩ := Prod.mk.inj (Option.some.inj h)
      exact ⟨[], _, rfl, rfl, hx, by simp⟩
    · rename_i hx
      split at h
      · rename_i f fs hf
        obtain ⟨rfl, rfl⟩ := Prod.mk.inj (Option.some.inj h)
        obtain ⟨pre, post, rfl, rfl, he, hpre⟩ := ih hf
        refine ⟨x :: pre, post, rfl, rfl, he, ?_⟩
        rintro y (_ | ⟨_, hy⟩)
        · exact hx
        · exact hpre y hy
      · cases h

/-- No event is selected exactly when none is enabled. -/
theorem nextOffer_none {p : Phase} {es : List (Event K)} :
    nextOffer p es = none ↔ ∀ x ∈ es, x.enabledIn p = false := by
  induction es with
  | nil => simp [nextOffer]
  | cons x xs ih =>
    rw [nextOffer]
    cases hx : x.enabledIn p
    · cases hn : nextOffer p xs with
      | none => simpa [hx] using ih.mp hn
      | some q => simpa [hx, hn] using ih
    · simp [hx]

/-- An enabled event behind offers that are not enabled is the one selected. -/
theorem nextOffer_append {p : Phase} {pre post : List (Event K)} {e : Event K} (hpre : ∀ x ∈ pre, x.enabledIn p = false)
    (he : e.enabledIn p = true) : nextOffer p (pre ++ e :: post) = some (e, pre ++ post) := by
  induction pre with
  | nil => simp [nextOffer, he]
  | cons x xs ih =>
    have hxs := ih fun y hy => hpre y (List.mem_cons_of_mem _ hy)
    simp [nextOffer, hpre x List.mem_cons_self, hxs]

/-! ## Enabling -/

@[simp] theorem enabledIn_accept {p : Phase} {w : CommandWord} : (Event.accept w : Event K).enabledIn p = true ↔ p = .idle := by
  simp [Event.enabledIn]

@[simp] theorem enabledIn_xdone {p : Phase} {o : Answer K} : (Event.xdone o).enabledIn p = p.outstanding := rfl

@[simp] theorem enabledIn_consume {p : Phase} : (Event.consume : Event K).enabledIn p = true ↔ p = .resp := by
  simp [Event.enabledIn]

@[simp] theorem enabledIn_reset {p : Phase} : (Event.reset : Event K).enabledIn p = true := rfl

/-- The two phases in which an exchange is outstanding (R35). -/
theorem outstanding_iff {p : Phase} : p.outstanding = true ↔ p = .x1 ∨ p = .x2 := by
  cases p <;> simp [Phase.outstanding]

/-! ## A presented command -/

/-- A presented command is taken in IDLE and held elsewhere. -/
theorem presentCommand_next {op : Op} {a : Address} {d : Payload} {s t : State.Of K} (h : presentCommand op a d s = .next t) :
    (s.phase = .idle ∧ t = s.accept op a d) ∨ (s.phase ≠ .idle ∧ t = s.hold (.accept (commandWord op a d))) := by
  unfold presentCommand at h
  split at h
  · exact .inl ⟨‹_›, by cases h; rfl⟩
  · exact .inr ⟨‹_›, by cases h; rfl⟩

/-! ## The completion of an exchange -/

/-- The four rows of the last case of XDONE (R142). -/
theorem complete_next {c : Command} {r : Frame} {s t : State.Of K} (h : complete c r s = .next t) :
    (c.op = .rd ∧ s.phase = .x1 ∧ t = completeRd r s) ∨ (c.op = .wr ∧ s.phase = .x1 ∧ t = completeWr s) ∨
    (c.op = .chipinfo ∧ s.phase = .x1 ∧ t = continueChipinfo s) ∨
    (c.op = .chipinfo ∧ s.phase = .x2 ∧ t = completeChipinfo r s) := by
  unfold complete at h
  split at h <;> cases h <;> simp_all

/-- A decoded reply ends in the strict check's error or in the command's own completion. -/
theorem onReply_next {r : Frame} {s t : State.Of K} (h : onReply r s = .next t) :
    ∃ c, s.cmd = some c ∧ ((replyMismatch s.par c s.phase r = true ∧ t = s.raise .unexpectedReply) ∨
      (replyMismatch s.par c s.phase r = false ∧ complete c r s = .next t)) := by
  unfold onReply at h
  split at h
  · cases h
  · rename_i c hc
    refine ⟨c, hc, ?_⟩
    split at h
    · exact .inl ⟨‹_›, by cases h; rfl⟩
    · exact .inr ⟨‹_›, h⟩

/-- A receive is a parse error or a decoded reply. -/
theorem onReceived_next {rx : Bytes5} {n : Fin 6} {s t : State.Of K} (h : onReceived rx n s = .next t) :
    (decodeFrame (receivedOctets rx n) = .parseError ∧ t = s.raise .parse) ∨
    ∃ r, decodeFrame (receivedOctets rx n) = .frame r ∧ onReply r s = .next t := by
  unfold onReceived at h
  split at h
  · exact .inl ⟨‹_›, by cases h; rfl⟩
  · exact .inr ⟨_, ‹_›, h⟩

/-- Five received octets decode to the frame they are. -/
@[simp] theorem decode_received_five (rx : Bytes5) : decodeFrame (receivedOctets rx 5) = .frame rx.frame := rfl

/-- XDONE is the transport's failure or a receive. -/
theorem xdone_next {o : Answer K} {s t : State.Of K} (h : xdone o s = .next t) :
    (∃ k, o = .fail k ∧ t = ((s.log (.done o)).setBuf none).raise (.communication k)) ∨
    ∃ rx n, o = .ok rx n ∧ onReceived rx n ((s.log (.done o)).setBuf (some rx)) = .next t := by
  unfold xdone at h
  split at h
  · exact .inl ⟨_, rfl, by cases h; rfl⟩
  · exact .inr ⟨_, _, rfl, h⟩

/-- What every XDONE that answers a next state does (R142): it ends the command with a held response, or it is CHIPINFO's
first exchange and issues the second. -/
theorem xdone_phases {o : Answer K} {s t : State.Of K} (h : xdone o s = .next t) :
    (t.phase = .resp ∧ t.hist = s.hist ++ [.done o]) ∨
    (s.phase = .x1 ∧ s.cmd.map Command.op = some .chipinfo ∧ t.phase = .x2 ∧
      t.hist = s.hist ++ [.done o, .issue (encodeFrame (secondRequest s.par))]) := by
  obtain ⟨k, rfl, rfl⟩ | ⟨rx, n, rfl, h⟩ := xdone_next h
  · exact .inl ⟨rfl, rfl⟩
  · obtain ⟨-, rfl⟩ | ⟨r, -, h⟩ := onReceived_next h
    · exact .inl ⟨rfl, rfl⟩
    · obtain ⟨c, hc, ⟨-, rfl⟩ | ⟨-, h⟩⟩ := onReply_next h
      · exact .inl ⟨rfl, rfl⟩
      · obtain ⟨-, -, rfl⟩ | ⟨-, -, rfl⟩ | ⟨hop, hp, rfl⟩ | ⟨-, -, rfl⟩ := complete_next h
        · exact .inl ⟨rfl, rfl⟩
        · exact .inl ⟨rfl, rfl⟩
        · refine .inr ⟨by simpa using hp, ?_, rfl, by simp [continueChipinfo]⟩
          have hc' : s.cmd = some c := by simpa using hc
          simp [hc', hop]
        · exact .inl ⟨rfl, rfl⟩

/-- XDONE leaves alone what is not its own: the parameters, the latched command, the offers, the caller's record. -/
theorem xdone_frame {o : Answer K} {s t : State.Of K} (h : xdone o s = .next t) :
    t.par = s.par ∧ t.cmd = s.cmd ∧ t.offers = s.offers ∧ t.taken = s.taken := by
  obtain ⟨k, rfl, rfl⟩ | ⟨rx, n, rfl, h⟩ := xdone_next h
  · exact ⟨rfl, rfl, rfl, rfl⟩
  · obtain ⟨-, rfl⟩ | ⟨r, -, h⟩ := onReceived_next h
    · exact ⟨rfl, rfl, rfl, rfl⟩
    · obtain ⟨c, -, ⟨-, rfl⟩ | ⟨-, h⟩⟩ := onReply_next h
      · exact ⟨rfl, rfl, rfl, rfl⟩
      · obtain ⟨-, -, rfl⟩ | ⟨-, -, rfl⟩ | ⟨-, -, rfl⟩ | ⟨-, -, rfl⟩ := complete_next h <;> exact ⟨rfl, rfl, rfl, rfl⟩

/-- An answer completes the outstanding exchange, or waits. -/
theorem transportAnswer_next {o : Answer K} {s t : State.Of K} (h : transportAnswer o s = .next t) :
    (s.phase.outstanding = true ∧ o.admitted s.par = true ∧ xdone o s = .next t) ∨
    (s.phase.outstanding = false ∧ t = s.hold (.xdone o)) := by
  unfold transportAnswer at h
  split at h
  · exact .inr ⟨‹_›, by cases h; rfl⟩
  · rename_i hp
    refine .inl ⟨hp, ?_⟩
    cases o with
    | fail k => exact ⟨rfl, h⟩
    | ok rx n =>
      cases ha : (Answer.ok rx n).admitted s.par with
      | false =>
        rw [ha] at h
        cases h
      | true =>
        rw [ha] at h
        exact ⟨rfl, h⟩

/-- An admitted answer to an outstanding exchange is the XDONE of it. -/
theorem transportAnswer_outstanding {o : Answer K} {s : State.Of K} (hp : s.phase.outstanding = true)
    (ha : o.admitted s.par = true) : transportAnswer o s = xdone o s := by
  unfold transportAnswer
  rw [hp, ha]
  cases o <;> rfl

/-! ## A step -/

/-- ENCODE and the five octets a whole frame is (R121) are related in Decode.lean; here only this is used: a whole received
frame carries an instruction, and nothing else the transport answers does. -/
theorem instr_xdone {o : Answer K} {i : Instr} (h : (Event.xdone o).instr = some i) :
    ∃ rx, o = .ok rx 5 ∧ i = rx.frame.instr := by
  cases o with
  | fail k => cases h
  | ok rx n =>
    simp only [Event.instr] at h
    split at h
    · rename_i hn
      obtain rfl : n = 5 := Fin.ext hn
      exact ⟨rx, rfl, (Option.some.inj h).symm⟩
    · cases h

/-- A step, written out: the oldest enabled offer, by its instruction or as the event it is. -/
theorem step_eq (s : State) : step s =
    match nextOffer s.phase s.offers with
    | none => .fault (.noEventEnabled s.phase)
    | some (e, rest) =>
      match e.instr with
      | some i => exec i (s.setOffers rest)
      | none   => performEvent e (s.setOffers rest) := by
  unfold step stepWith
  cases nextOffer s.phase s.offers with
  | none => rfl
  | some q => cases h : q.1.instr <;> simp only [h]

/-- Every step performs the oldest enabled offer. -/
theorem step_next {s t : State} (h : step s = .next t) :
    ∃ e pre post, s.offers = pre ++ e :: post ∧ e.enabledIn s.phase = true ∧ (∀ x ∈ pre, x.enabledIn s.phase = false) ∧
      ((∃ i, e.instr = some i ∧ exec i (s.setOffers (pre ++ post)) = .next t) ∨
       (e.instr = none ∧ performEvent e (s.setOffers (pre ++ post)) = .next t)) := by
  rw [step_eq] at h
  split at h
  · cases h
  · rename_i e rest hn
    obtain ⟨pre, post, hs, rfl, he, hpre⟩ := nextOffer_some hn
    refine ⟨e, pre, post, hs, he, hpre, ?_⟩
    split at h
    · exact .inl ⟨_, ‹_›, h⟩
    · exact .inr ⟨‹_›, h⟩

end Sys2Proof.Machine
end

