-- ==== Sys2Proof/Laws/PerInstr.lean ====
section
/-! SUPPORT. One family of statements about instructions as syntax: the word the encoder writes lies in the row of
spec/opcode_table.json that the instruction belongs to (spec/30_encoding.md R97), and fits the row's width. -/

namespace Sys2Proof.Laws.TableRow

/-- The column "mask" of R97. -/
def rowMask : Instr → Nat
  | .rd _ _       => 0x18000000000
  | .wr _ _       => 0x18000000000
  | .chipinfo _ _ => 0x18000000000
  | .frameRd _ _  => 0x8000000000
  | .frameWr _ _  => 0x8000000000

/-- The column "match" of R97. -/
def rowMatch : Instr → Nat
  | .rd _ _       => 0x00000000000
  | .wr _ _       => 0x08000000000
  | .chipinfo _ _ => 0x10000000000
  | .frameRd _ _  => 0x0000000000
  | .frameWr _ _  => 0x8000000000

/-- The table word has the row's width and matches the row's pattern. -/
def Statement (i : Instr) : Prop :=
  (encode i).tableWord < 2 ^ (encode i).bits ∧ (encode i).tableWord &&& rowMask i = rowMatch i

/-- The two fixed bits of a command word. -/
theorem command_row (op : Op) (a : Address) (d : Payload) :
    (commandWord op a d) &&& 0x18000000000#41 = op.code.setWidth 41 <<< 39 := by
  unfold commandWord
  apply BitVec.eq_of_getLsbD_eq
  intro k hk
  have hm : (0x18000000000#41).getLsbD k = (decide (39 ≤ k) && decide (k < 41)) := by
    revert k
    decide
  rw [BitVec.getLsbD_and, hm, BitVec.getLsbD_append, BitVec.getLsbD_append, BitVec.getLsbD_shiftLeft, BitVec.getLsbD_setWidth]
  by_cases h : k < 39
  · have h' : ¬ 39 ≤ k := by omega
    simp [h, h']
  · have h1 : ¬ k < 32 := by omega
    have h2 : ¬ k - 32 < 7 := by omega
    have h3 : k - 32 - 7 = k - 39 := by omega
    have h4 : 39 ≤ k := by omega
    have h5 : k - 39 < 41 := by omega
    simp [h, h1, h2, h3, h4, h5, hk]

/-- The one fixed bit of a wire frame. -/
theorem wire_row (b0 : Octet) (f : Frame) :
    ({ encodeFrame f with b0 := b0 } : Bytes5).word &&& 0x8000000000#40 = (b0 &&& dirMask).setWidth 40 <<< 32 := by
  unfold Bytes5.word
  apply BitVec.eq_of_getLsbD_eq
  intro k hk
  have hm : (0x8000000000#40).getLsbD k = decide (k = 39) := by
    revert k
    decide
  have hd : ∀ j : Nat, dirMask.getLsbD j = decide (j = 7) := by
    intro j
    by_cases hj : j < 8
    · revert j
      decide
    · have : j ≠ 7 := by omega
      simp [BitVec.getLsbD_of_ge _ _ (Nat.le_of_not_lt hj), this]
  rw [BitVec.getLsbD_and, hm, BitVec.getLsbD_shiftLeft, BitVec.getLsbD_setWidth, BitVec.getLsbD_and, hd]
  by_cases h : k = 39
  · subst h
    simp only [BitVec.getLsbD_append]
    simp
  · have h7 : ¬ (k - 32 = 7 ∧ ¬ k < 32) := by omega
    by_cases h32 : k < 32
    · simp [h, h32]
    · have : ¬ k - 32 = 7 := by omega
      simp [h, this]

theorem command_statement (op : Op) (a : Address) (d : Payload) :
    (commandWord op a d).toNat &&& 0x18000000000 = (op.code.setWidth 41 <<< 39).toNat := by
  have h := congrArg BitVec.toNat (command_row op a d)
  rwa [BitVec.toNat_and] at h

theorem wire_statement (f : Frame) :
    (encodeFrame f).word.toNat &&& 0x8000000000 = (((encodeFrame f).b0 &&& dirMask).setWidth 40 <<< 32).toNat := by
  have h := congrArg BitVec.toNat (wire_row (encodeFrame f).b0 f)
  rwa [BitVec.toNat_and] at h

/-- Octet 0's direction bit (R83). -/
theorem octet0_dir (d : Dir) (a : Address) (p : Payload) :
    (encodeFrame { direction := d, address := a, payload := p }).b0 &&& dirMask = d.mask := by
  cases d <;> revert a <;> simp only [encodeFrame, Dir.mask] <;> decide

theorem rd (addr : Address) (data : Payload) : Statement (.rd addr data) :=
  ⟨(commandWord .rd addr data).isLt, (command_statement .rd addr data).trans (by simp only [rowMatch]; decide)⟩

theorem wr (addr : Address) (data : Payload) : Statement (.wr addr data) :=
  ⟨(commandWord .wr addr data).isLt, (command_statement .wr addr data).trans (by simp only [rowMatch]; decide)⟩

theorem chipinfo (addr : Address) (selector : Payload) : Statement (.chipinfo addr selector) :=
  ⟨(commandWord .chipinfo addr selector).isLt, (command_statement .chipinfo addr selector).trans (by simp only [rowMatch]; decide)⟩

theorem frameRd (address : Address) (payload : Payload) : Statement (.frameRd address payload) :=
  ⟨(encodeFrame _).word.isLt, (wire_statement _).trans (by rw [octet0_dir]; simp only [rowMatch]; decide)⟩

theorem frameWr (address : Address) (payload : Payload) : Statement (.frameWr address payload) :=
  ⟨(encodeFrame _).word.isLt, (wire_statement _).trans (by rw [octet0_dir]; simp only [rowMatch]; decide)⟩

end Sys2Proof.Laws.TableRow
end

