-- ==== Sys2Proof/Tests/Slice0.lean ====
section
/-! SUPPORT. The model's own tests: words written out bit by bit from spec/30_encoding.md, the vectors of
spec/95_test_vectors.md (E, D, T and V numbers are that file's), the ill-formed terms the checks refuse, and for every statement
with hypotheses a witness that meets them together. -/

namespace Sys2Proof.Tests

open Sys2Proof Sys2Proof.Machine

/-! ## States the tests start from -/

/-- A block with given parameters in which a command has just been accepted. -/
def accepted (p : Params) (op : Op) (a : Address) (d : Payload) : State := (State.launch p).accept op a d

/-- The parameters of the vectors with the strict check on. -/
def strict : Params := { Params.vectorDefaults with strictReplyCheck := true }

/-- The parameters of the vectors with short receives not admitted. -/
def fullOnly : Params := { Params.vectorDefaults with rxShortAdmitted := false }

/-- CHIPINFO 0 with its second exchange outstanding. -/
def second (p : Params) : State := continueChipinfo ((accepted p .chipinfo 0#7 0#32).log (.done (.ok ⟨0x81#8, 0, 0, 0, 0⟩ 5)))

/-- A response that is held: RD 0x12 with the reply of T1. -/
def held : State := ((accepted Params.vectorDefaults .rd 0x12#7 0#32).log (.done (.ok ⟨0x12#8, 1, 2, 3, 4⟩ 5))).respond .ok 0x01020304#32 none

/-- The response of a next state. -/
def responseOf (o : Host.Outcome State Fault Refusal) : Option (Response TKind) := (nextState o).map State.Of.response

/-! ## Well-formedness: an ill-formed term for each check -/

theorem test_wf_addr_refused : (Source.rd 128).wellFormed = false ∧ (Source.rd 127).wellFormed = true := by decide

theorem test_wf_wr_addr_refused : (Source.wr 128 0).wellFormed = false ∧ (Source.wr 127 0).wellFormed = true := by decide

theorem test_wf_wr_value_refused :
    (Source.wr 0 4294967296).wellFormed = false ∧ (Source.wr 0 4294967295).wellFormed = true := by decide

theorem test_wf_selector_refused :
    (Source.chipinfo 4294967296).wellFormed = false ∧ (Source.chipinfo 4294967295).wellFormed = true := by decide

theorem test_wf_frame_length_refused :
    (Source.octets [1, 2, 3, 4]).wellFormed = false ∧ (Source.octets [1, 2, 3, 4, 5]).wellFormed = true := by decide

theorem test_wf_octet_refused : (Source.octets [256, 2, 3, 4, 5]).wellFormed = false := by decide

theorem test_wf_reserved_word_refused :
    CommandWord.wellFormed 0x18000000000#41 = false ∧ CommandWord.wellFormed 0x17FFFFFFFFF#41 = true := by decide

/-! ## Decoding: words written out bit by bit (R87, R88, R82) -/

theorem test_decode_rd :
    decodeCommand 0b00001001011111111111111111111111111111111#41 = .ok (.rd 0x12#7 0xFFFFFFFF#32) := by decide

theorem test_decode_wr :
    decodeCommand 0b01010000000010010001101000101011001111000#41 = .ok (.wr 0x20#7 0x12345678#32) := by decide

theorem test_decode_chipinfo :
    decodeCommand 0b10111111100000000000000000000000000000010#41 = .ok (.chipinfo 0x7F#7 2#32) := by decide

theorem test_decode_reserved :
    decodeCommand 0b11000000000000000000000000000000000000000#41 = .error .reservedOp := by decide

theorem test_decode_frame_rd :
    decodeOctets [0b01010101#8, 0b10000000#8, 0#8, 0#8, 0b00000001#8] = .ok (.frameRd 0x55#7 0x80000001#32) := by decide

theorem test_decode_frame_wr :
    decodeOctets [0b10010010#8, 0b11011110#8, 0b10101101#8, 0b10111110#8, 0b11101111#8, 0x11#8] =
      .ok (.frameWr 0x12#7 0xDEADBEEF#32) := by decide

theorem test_decode_short : decodeOctets [0x12#8, 0x34#8, 0x56#8, 0x78#8] = .error .shortFrame := by decide

/-- The same by the table's numbering: bit 39 of a frame is its direction, bits 40 and 39 of a command word its code. -/
theorem test_decode_table_words :
    decodeTableWord 48 0x0A012345678 = some (.wr 0x20#7 0x12345678#32) ∧
    decodeTableWord 40 0x92DEADBEEF = some (.frameWr 0x12#7 0xDEADBEEF#32) ∧
    decodeTableWord 40 0x5580000001 = some (.frameRd 0x55#7 0x80000001#32) ∧
    decodeTableWord 48 0x18000000000 = none ∧ decodeTableWord 48 0x20000000000 = none := by decide

/-- Vectors E4 and E5. -/
theorem test_encode_frames :
    encodeFrame { direction := .write, address := 0x7F#7, payload := 0xFFFFFFFF#32 } = ⟨0xFF#8, 0xFF#8, 0xFF#8, 0xFF#8, 0xFF#8⟩ ∧
    encodeFrame { direction := .write, address := 0x12#7, payload := 0xDEADBEEF#32 } = ⟨0x92#8, 0xDE#8, 0xAD#8, 0xBE#8, 0xEF#8⟩ := by
  decide

theorem test_encode_words :
    encode (.rd 0x12#7 0#32) = .command 0x01200000000#41 ∧ encode (.wr 0x7F#7 0xFFFFFFFF#32) = .command 0x0FFFFFFFFFF#41 ∧
    encode (.chipinfo 0x7F#7 0#32) = .command 0x17F00000000#41 := by decide

/-! ## One step of each instruction -/

/-- T1, the request. -/
theorem test_rd_issues :
    (nextState (exec (.rd 0x12#7 0xFFFFFFFF#32) State.reset)).map State.Of.buf = some (some ⟨0x12#8, 0, 0, 0, 0⟩) := by decide

/-- V1: the caller holds a word presented in X1. -/
theorem test_rd_held_while_busy :
    (nextState (exec (.rd 0x12#7 0#32) (accepted strict .wr 0x20#7 1#32))).map (fun t => (t.phase, t.offers)) =
      some (.x1, [.accept 0x01200000000#41]) := by decide

/-- T7 and T8, the requests. -/
theorem test_wr_issues :
    (nextState (exec (.wr 0x7F#7 0xFFFFFFFF#32) State.reset)).map State.Of.buf = some (some ⟨0xFF#8, 0xFF#8, 0xFF#8, 0xFF#8, 0xFF#8⟩) ∧
    (nextState (exec (.wr 0x20#7 0x12345678#32) State.reset)).map State.Of.buf = some (some ⟨0xA0#8, 0x12#8, 0x34#8, 0x56#8, 0x78#8⟩) := by
  decide

/-- T15, the first request, and T16, with another selector register. -/
theorem test_chipinfo_issues :
    (nextState (exec (.chipinfo 0x7F#7 0x01020304#32) State.reset)).map State.Of.buf = some (some ⟨0x81#8, 1, 2, 3, 4⟩) ∧
    (nextState (exec (.chipinfo 0#7 0#32)
      (State.launch { Params.vectorDefaults with chipInfoAddr := 5#7, chipInfoData := 5#7 }))).map State.Of.buf =
        some (some ⟨0x85#8, 0, 0, 0, 0⟩) := by decide

/-- T10: the reply to exchange 1 issues exchange 2. -/
theorem test_chipinfo_second_exchange :
    (nextState (exec (.frameWr 1#7 0#32) (accepted Params.vectorDefaults .chipinfo 0#7 2#32))).map (fun t => (t.phase, t.buf)) =
      some (.x2, some ⟨0, 0, 0, 0, 0⟩) := by decide

/-- T1, the reply, and L1-5, the second reply of CHIPINFO 0. -/
theorem test_frame_rd_completes :
    responseOf (exec (.frameRd 0x12#7 0x01020304#32) (accepted Params.vectorDefaults .rd 0x12#7 0#32)) =
      some { status := some .ok, data := some 0x01020304#32, kind := none } ∧
    responseOf (exec (.frameRd 0#7 0x41424344#32) (second strict)) =
      some { status := some .ok, data := some 0x41424344#32, kind := none } := by decide

/-- T13: the strict check at CHIPINFO's exchange 1. -/
theorem test_frame_rd_strict_mismatch :
    responseOf (exec (.frameRd 5#7 0#32) (accepted strict .chipinfo 0#7 0#32)) =
      some { status := some .unexpectedReply, data := some 0#32, kind := none } := by decide

/-- T2 and T3: another address, without and with the strict check. -/
theorem test_frame_wr_address :
    responseOf (exec (.frameWr 0x45#7 0xAABBCCDD#32) (accepted Params.vectorDefaults .rd 0x12#7 0#32)) =
      some { status := some .ok, data := some 0xAABBCCDD#32, kind := none } ∧
    responseOf (exec (.frameWr 0x45#7 0xAABBCCDD#32) (accepted strict .rd 0x12#7 0#32)) =
      some { status := some .unexpectedReply, data := some 0#32, kind := none } := by decide

/-- T8: the echo of a write is discarded. -/
theorem test_frame_wr_completes_wr :
    responseOf (exec (.frameWr 0x20#7 0x12345678#32) (accepted strict .wr 0x20#7 0x12345678#32)) =
      some { status := some .ok, data := some 0#32, kind := none } := by decide

/-! ## Events -/

/-- T5. -/
theorem test_step_failure :
    responseOf (step ((accepted Params.vectorDefaults .rd 0#7 0#32).hold (.xdone (.fail { tag := 7 })))) =
      some { status := some .commErr, data := some 0#32, kind := some { tag := 7 } } := by decide

/-- T17: a short receive outranks the strict check. -/
theorem test_step_short_outranks_strict :
    responseOf (step ((accepted strict .chipinfo 0#7 0#32).hold (.xdone (.ok ⟨0x05#8, 0, 0, 0, 0⟩ 4)))) =
      some { status := some .parseErr, data := some 0#32, kind := none } := by decide

/-- V4: RESET abandons the exchange. -/
theorem test_step_reset :
    (nextState (step ((accepted Params.vectorDefaults .rd 0x12#7 0#32).hold .reset))).map (fun t => (t.phase, t.rspValid, t.hist)) =
      some (.idle, false, [.issue ⟨0x12#8, 0, 0, 0, 0⟩, .reset]) := by decide

/-- V6: after CONSUME a read of `rsp_data` faults; before it, it answers. -/
theorem test_step_consume :
    (nextState (step (held.hold .consume))).map State.Of.readRspData = some (.error (.readUnspec .rspData)) ∧
    held.readRspData = .ok 0x01020304#32 := by decide

/-- V8: a reserved word is refused. -/
theorem test_step_reserved : step (State.reset.hold (.accept 0x18000000000#41)) = .refused (.reservedCommand 0x18000000000#41) := rfl

/-- V1, V2, V3: what is not enabled is not performed. -/
theorem test_step_disabled :
    step ((State.reset.hold .consume).hold (.xdone (.fail { tag := 0 }))) = .fault (.noEventEnabled .idle) := rfl

/-- A busy block before which a command, an answer and another command stand. -/
def waiting : State :=
  (accepted strict .rd 0x12#7 0#32).setOffers [.accept 0x02000000000#41, .xdone (.ok ⟨0x12#8, 1, 2, 3, 4⟩ 5), .accept 0x02100000000#41]

/-- R218: the word that is dropped while the block is busy is gone, and the answer and the word behind it stay. -/
theorem test_dropped_command_is_lost :
    waiting.dropCommand.offers = [.xdone (.ok ⟨0x12#8, 1, 2, 3, 4⟩ 5), .accept 0x02100000000#41] ∧
    waiting.dropCommand.cmd = some { op := .rd, addr := 0x12#7, data := 0#32 } := by decide

/-! ## The assembler notation -/

theorem test_read_lines :
    readLine "RD 0x12".toList = some (.rd 0x12) ∧ readLine "WR 0x7F, 0xFFFFFFFF".toList = some (.wr 0x7F 0xFFFFFFFF) ∧
    readLine "CHIPINFO SI_TYPE".toList = some (.chipinfo 0) ∧ readLine "CHIPINFO 2".toList = some (.chipinfo 2) ∧
    readLine "[0x92, 0xDE, 0xAD, 0xBE, 0xEF]".toList = some (.octets [0x92, 0xDE, 0xAD, 0xBE, 0xEF]) ∧
    readLine "RD".toList = none ∧ readLine "RD 1F".toList = none := by decide

/-- The first two lines of program P1 are its words. -/
theorem test_read_program :
    readProgram "WR 0x20, 0xCAFEBABE\nRD 0x20".toList = some [0x0A0CAFEBABE#41, 0x02000000000#41] := by decide

theorem test_caller_offers :
    (callerOffers [0x02000000000#41, 0x02100000000#41] : List (Event TKind)) =
      [.accept 0x02000000000#41, .consume, .accept 0x02100000000#41, .consume] := by decide

/-! ## Witnesses: the hypotheses of every statement can be met -/

theorem witness_PayloadIsBigEndianBothWays :
    decodeFrame (Bytes5.toList ⟨0x92#8, 0xDE#8, 0xAD#8, 0xBE#8, 0xEF#8⟩) =
      .frame { direction := .write, address := 0x12#7, payload := 0xDEADBEEF#32 } := by decide

theorem witness_DecodeLengthRule :
    ([] : List Octet).length < 5 ∧ ([1, 2, 3, 4] : List Octet).length < 5 ∧ 5 ≤ ([1, 2, 3, 4, 5] : List Octet).length ∧
    5 ≤ ([1, 2, 3, 4, 5, 6] : List Octet).length := by decide

theorem witness_EncodeOfDecodeIsTheWord :
    decode (.command 0x0FFFFFFFFFF#41) = .ok (.wr 0x7F#7 0xFFFFFFFF#32) ∧
    decode (.wire ⟨0x7F#8, 0xFF#8, 0xFF#8, 0xFF#8, 0xFF#8⟩) = .ok (.frameRd 0x7F#7 0xFFFFFFFF#32) := by decide

theorem witness_AssemblerRejectsAndNeverMasks :
    assemble (.rd 127) = some (.rd 0x7F#7 0#32) ∧ assemble (.wr 0 4294967295) = some (.wr 0#7 0xFFFFFFFF#32) ∧
    assemble (.chipinfo 4294967295) = some (.chipinfo 0#7 0xFFFFFFFF#32) ∧
    assemble (.octets [255, 0, 0, 0, 255]) = some (.frameWr 0x7F#7 0x000000FF#32) := by decide

theorem witness_AcceptFollowsItsPseudocode :
    BitVec.extractLsb' 39 2 0x18000000000#41 = 0b11#2 ∧ BitVec.extractLsb' 39 2 0x17FFFFFFFFF#41 ≠ 0b11#2 ∧
    State.reset.phase = .idle ∧ held.phase ≠ .idle ∧
    exec (.rd 1#7 0#32) held = .next (held.hold (.accept 0x00100000000#41)) :=
  ⟨by decide, by decide, rfl, by decide, rfl⟩

theorem witness_RdIssuesItsReadFrame : State.reset.phase = .idle := rfl

theorem witness_WrIssuesItsWriteFrame : (State.launch strict).phase = .idle := rfl

theorem witness_ChipinfoIssuesItsSelectorWrite : (State.launch fullOnly).phase = .idle := rfl

theorem witness_BusyBlockLeavesTheCommandHeld :
    (accepted strict .rd 0#7 0#32).phase ≠ .idle ∧ (second strict).phase ≠ .idle ∧ held.phase ≠ .idle := by decide

theorem witness_CommandsLeaveEverythingElseAlone :
    (∃ t, exec (.rd 0#7 0#32) State.reset = .next t) ∧ (∃ t, exec (.wr 0x7F#7 1#32) held = .next t) ∧
    ∃ t, exec (.chipinfo 0#7 1#32) State.reset = .next t := ⟨⟨_, rfl⟩, ⟨_, rfl⟩, ⟨_, rfl⟩⟩

theorem witness_AcceptDependsOnTheCommandOnly :
    State.reset.phase = .idle ∧ (held.setPhase .idle).phase = .idle ∧ State.reset.par = (held.setPhase .idle).par := by decide

theorem witness_IgnoredFieldsReachCmdOnly :
    (State.launch strict).phase = .idle ∧
    (accepted strict .rd 0x12#7 0#32).cmd = some { op := .rd, addr := 0x12#7, data := 0#32 } ∧
    (accepted strict .rd 0x12#7 0#32).phase = .x1 ∧
    (second strict).cmd = some { op := .chipinfo, addr := 0#7, data := 0#32 } ∧ (second strict).phase = .x2 := by decide

theorem witness_XdoneFollowsItsPseudocode :
    (accepted strict .wr 0x7F#7 1#32).cmd = some { op := .wr, addr := 0x7F#7, data := 1#32 } ∧
    (accepted strict .wr 0x7F#7 1#32).phase = .x1 ∧
    (second fullOnly).cmd = some { op := .chipinfo, addr := 0#7, data := 0#32 } ∧ (second fullOnly).phase = .x2 := by decide

theorem witness_FrameCompletesRd :
    (accepted strict .rd 0x12#7 0#32).phase = .x1 ∧
    (accepted strict .rd 0x12#7 0#32).cmd = some { op := .rd, addr := 0x12#7, data := 0#32 } ∧
    (accepted fullOnly .rd 0x12#7 0#32).par.strictReplyCheck = false := by decide

theorem witness_FrameCompletesWr :
    (accepted strict .wr 0#7 0#32).phase = .x1 ∧
    (accepted strict .wr 0#7 0#32).cmd = some { op := .wr, addr := 0#7, data := 0#32 } ∧
    (accepted fullOnly .wr 0#7 0#32).par.strictReplyCheck = false := by decide

theorem witness_FrameContinuesChipinfo :
    (accepted strict .chipinfo 0#7 2#32).phase = .x1 ∧
    (accepted strict .chipinfo 0#7 2#32).cmd = some { op := .chipinfo, addr := 0#7, data := 2#32 } ∧
    (1#7 : Address) = (accepted strict .chipinfo 0#7 2#32).par.chipInfoAddr := by decide

theorem witness_FrameCompletesChipinfo :
    (second strict).phase = .x2 ∧ (second strict).cmd = some { op := .chipinfo, addr := 0#7, data := 0#32 } ∧
    (0#7 : Address) = (second strict).par.chipInfoData ∧ (second fullOnly).par.strictReplyCheck = false := by decide

theorem witness_StrictCheckCatchesAnotherAddress :
    (second strict).phase = .x2 ∧ (second strict).cmd = some { op := .chipinfo, addr := 0#7, data := 0#32 } ∧
    (second strict).par.strictReplyCheck = true ∧ (0x7F#7 : Address) ≠ (second strict).par.chipInfoData ∧
    (accepted strict .rd 0x12#7 0#32).phase = .x1 ∧ (0x45#7 : Address) ≠ 0x12#7 := by decide

theorem witness_ReplyDirectionAndAddressUnused :
    (accepted fullOnly .rd 0x12#7 0#32).cmd = some { op := .rd, addr := 0x12#7, data := 0#32 } ∧
    (accepted fullOnly .rd 0x12#7 0#32).phase = .x1 ∧ (accepted fullOnly .rd 0x12#7 0#32).par.strictReplyCheck = false ∧
    (second fullOnly).phase = .x2 ∧ (second fullOnly).cmd.map Command.op = some .chipinfo := by decide

theorem witness_WrResponseIgnoresReplyPayload :
    (accepted fullOnly .wr 0x20#7 1#32).phase = .x1 ∧
    (accepted fullOnly .wr 0x20#7 1#32).cmd = some { op := .wr, addr := 0x20#7, data := 1#32 } ∧
    (accepted fullOnly .wr 0x20#7 1#32).par.strictReplyCheck = false := by decide

theorem witness_FrameWithoutExchangeChangesNothing : State.reset.phase = .idle ∧ held.phase = .resp := by decide

theorem witness_FramesLeaveEverythingElseAlone :
    (∃ t, exec (.frameRd 1#7 0#32) (accepted Params.vectorDefaults .chipinfo 0#7 2#32) = .next t ∧ t.phase ≠ .resp) ∧
    ∃ t, exec (.frameWr 0#7 1#32) held = .next t := ⟨⟨_, rfl, by decide⟩, ⟨_, rfl⟩⟩

theorem witness_StepRunsTheDecodedInstruction :
    (State.reset.hold (.accept 0x01200000000#41)).phase = .idle ∧
    decode (.command 0x01200000000#41) = .ok (.rd 0x12#7 0#32) ∧
    ((second strict).hold (.xdone (.ok ⟨0, 1, 2, 3, 4⟩ 5))).phase = .x2 ∧
    decode (.wire ⟨0, 1, 2, 3, 4⟩) = .ok (.frameRd 0#7 0x01020304#32) := by decide

theorem witness_StepPerformsTheOldestEnabledOffer :
    (∀ x ∈ ([.accept 0x01200000000#41, .consume] : List (Event TKind)), x.enabledIn (second strict).phase = false) ∧
    (Event.xdone (.fail (TKind.mk 0))).enabledIn (second strict).phase = true := by decide

/-- A step that takes a command and a step that takes none. -/
theorem witness_CommandsAreTakenInTheCallersOrder :
    (∃ t, step (State.reset.hold (.accept 0x01200000000#41)) = .next t) ∧ ∃ t, step (held.hold .consume) = .next t :=
  ⟨⟨_, rfl⟩, ⟨_, rfl⟩⟩

theorem witness_ReservedWordIsRefused :
    (State.reset.hold (.accept 0x1FFFFFFFFFF#41)).phase = .idle ∧ BitVec.extractLsb' 39 2 0x1FFFFFFFFFF#41 = 0b11#2 := by decide

theorem witness_TransportFailureEndsTheCommand :
    ((accepted strict .rd 0#7 0#32).hold (.xdone (.fail { tag := 3 }))).phase = .x1 ∧
    ((second strict).hold (.xdone (.fail { tag := 3 }))).phase = .x2 := by decide

theorem witness_ShortReceiveEndsTheCommand :
    ((accepted strict .rd 0#7 0#32).hold (.xdone (.ok ⟨0, 0, 0, 0, 0⟩ 0))).phase = .x1 ∧ (0 : Fin 6).val < 5 ∧ (4 : Fin 6).val < 5 ∧
    strict.rxShortAdmitted = true ∧ (accepted fullOnly .rd 0#7 0#32).par.rxShortAdmitted = false := by decide

theorem witness_FailedFirstExchangeStopsChipinfo :
    (accepted strict .chipinfo 0#7 0#32).phase = .x1 ∧
    (accepted strict .chipinfo 0#7 0#32).cmd = some { op := .chipinfo, addr := 0#7, data := 0#32 } ∧
    Answer.admitted strict (.fail (TKind.mk 1)) = true ∧ Answer.admitted (K := TKind) strict (.ok ⟨0, 0, 0, 0, 0⟩ 4) = true ∧
    Answer.admitted (K := TKind) strict (.ok ⟨0x05#8, 0, 0, 0, 0⟩ 5) = true ∧ strict.strictReplyCheck = true ∧
    BitVec.extractLsb' 0 7 0x05#8 ≠ strict.chipInfoAddr := by decide

theorem witness_ConsumeReturnsTheBlockToIdle :
    (held.hold .consume).phase = .resp ∧ (held.hold .consume).offers = [.consume] ∧
    (State.reset.hold .consume).phase ≠ .resp ∧ ∀ x ∈ (State.reset.hold .consume).offers, x = .consume := by decide

theorem witness_ResetIsAlwaysEnabledAndClears :
    (((second strict).hold .reset).hold (.accept 0x01200000000#41)).offers = [.accept 0x01200000000#41] ++ .reset :: [] ∧
    ∀ x ∈ ([.accept 0x01200000000#41] : List (Event TKind)), x.enabledIn (second strict).phase = false := by decide

theorem witness_NoAnswerIsDeliveredAfterReset :
    ∃ t, step ((accepted strict .rd 0#7 0#32).setOffers [.reset, .xdone (.ok ⟨0, 1, 2, 3, 4⟩ 5), .consume]) = .next t := ⟨_, rfl⟩

theorem witness_StuckExactlyWhenNothingIsEnabled :
    ∀ x ∈ ((second strict).setOffers [.accept 0x01200000000#41, .consume]).offers, x.enabledIn .x2 = false := by decide

/-- One step along each row of R30's table. -/
theorem witness_PhaseMovesOnlyAlongTheTable :
    (∃ t, step (State.reset.hold (.accept 0#41)) = .next t) ∧
    (∃ t, step ((accepted strict .rd 0#7 0#32).hold (.xdone (.ok ⟨0, 1, 2, 3, 4⟩ 5))) = .next t) ∧
    (∃ t, step ((accepted strict .chipinfo 0#7 0#32).hold (.xdone (.ok ⟨1, 1, 2, 3, 4⟩ 5))) = .next t) ∧
    (∃ t, step ((second strict).hold (.xdone (.fail { tag := 0 }))) = .next t) ∧
    (∃ t, step (held.hold .consume) = .next t) ∧ ∃ t, step (held.hold .reset) = .next t :=
  ⟨⟨_, rfl⟩, ⟨_, rfl⟩, ⟨_, rfl⟩, ⟨_, rfl⟩, ⟨_, rfl⟩, ⟨_, rfl⟩⟩

theorem witness_ParametersConstantAndHistoryGrows :
    (∃ t, step (held.hold .consume) = .next t) ∧ ∃ t, step (State.reset.hold .reset) = .next t := ⟨⟨_, rfl⟩, ⟨_, rfl⟩⟩

theorem witness_AnsweringTransportMovesTheCommandOn :
    ((accepted strict .rd 0#7 0#32).setOffers [.consume, .xdone (.ok ⟨0, 1, 2, 3, 4⟩ 5)]).Inv ∧
    (accepted strict .rd 0#7 0#32).phase = .x1 ∧ (Event.consume : Event TKind).enabledIn .x1 = false ∧
    Answer.admitted (K := TKind) strict (.ok ⟨0, 1, 2, 3, 4⟩ 5) = true := by decide

theorem witness_WholeReadReturnsTheReplyPayload :
    State.reset.Inv ∧ State.reset.phase = .idle ∧ State.reset.par.strictReplyCheck = false ∧
    (State.reset.setOffers [.accept 0x01200000000#41, .xdone (.ok ⟨0x12#8, 1, 2, 3, 4⟩ 5), .consume]).offers =
      .accept (0b00#2 ++ 0x12#7 ++ 0#32) :: .xdone (.ok ⟨0x12#8, 1, 2, 3, 4⟩ 5) :: .consume :: [] := by decide

theorem witness_WholeWriteReturnsOk :
    State.reset.Inv ∧ State.reset.phase = .idle ∧ State.reset.par.strictReplyCheck = false ∧
    (State.reset.setOffers [.accept 0x0FFFFFFFFFF#41, .xdone (.ok ⟨0, 0, 0, 0, 0⟩ 5), .consume]).offers =
      .accept (0b01#2 ++ 0x7F#7 ++ 0xFFFFFFFF#32) :: .xdone (.ok ⟨0, 0, 0, 0, 0⟩ 5) :: .consume :: [] := by decide

theorem witness_WholeChipinfoReturnsTheSecondPayload :
    State.reset.Inv ∧ State.reset.phase = .idle ∧ State.reset.par.strictReplyCheck = false ∧
    (State.reset.setOffers [.accept 0x10000000002#41, .xdone (.ok ⟨0x81#8, 0, 0, 0, 0⟩ 5),
      .xdone (.ok ⟨0, 0x20#8, 0x19#8, 0x06#8, 0x14#8⟩ 5), .consume]).offers =
      .accept (0b10#2 ++ 0#7 ++ 2#32) :: .xdone (.ok ⟨0x81#8, 0, 0, 0, 0⟩ 5) ::
        .xdone (.ok ⟨0, 0x20#8, 0x19#8, 0x06#8, 0x14#8⟩ 5) :: .consume :: [] := by decide

/-- A response that is held after a transport failure. -/
def failed : State :=
  (((accepted strict .rd 0#7 0#32).log (.done (.fail { tag := 7 }))).setBuf none).raise (.communication { tag := 7 })

theorem witness_ResponseReadsFollowTheReadingRule :
    State.reset.rspValid = false ∧ held.rspStatus ≠ some .commErr ∧ State.reset.buf = none ∧ State.reset.cmd = none ∧
    (held.Good ∧ held.phase = .resp) ∧ (failed.Good ∧ failed.phase = .resp ∧ failed.rspStatus = some .commErr) :=
  ⟨by decide, by decide, by decide, by decide, ⟨⟨by decide, by decide, by decide⟩, by decide⟩,
    ⟨by decide, by decide, by decide⟩, by decide, by decide⟩

/-- The clauses of the reading rule that need a register's value: each at a state that has it, and the clauses that need UNSPEC. -/
theorem witness_ResponseReadsFollowTheReadingRule_values :
    held.rspValid = true ∧ held.rspStatus = some .ok ∧ held.rspData = some 0x01020304#32 ∧ held.rspKind = none ∧
    failed.rspValid = true ∧ failed.rspStatus = some .commErr ∧ failed.rspKind = some { tag := 7 } ∧ failed.buf = none ∧
    held.cmd = some { op := .rd, addr := 0x12#7, data := 0#32 } ∧ held.buf = some ⟨0x12#8, 0, 0, 0, 0⟩ ∧
    State.reset.rspStatus = none ∧ State.reset.rspData = none := by decide

theorem witness_LaunchIsTheStateAfterReset : held.par = Params.vectorDefaults := rfl

theorem witness_LaunchStateIsGood :
    (Event.reset : Event TKind).enabledIn (State.launch strict).phase = true ∧
    (Event.accept 0#41 : Event TKind).enabledIn (State.launch strict).phase = true := by decide

theorem witness_EveryStepKeepsTheFiveInvariants :
    (held.hold .consume).Inv ∧ ((second strict).hold .reset).Inv ∧ (∃ t, step (held.hold .consume) = .next t) ∧
    ∃ t, step ((second strict).hold .reset) = .next t := ⟨by decide, by decide, ⟨_, rfl⟩, ⟨_, rfl⟩⟩

theorem witness_EveryStepKeepsOneExchangeAtATime :
    ((accepted strict .chipinfo 0#7 0#32).hold (.xdone (.ok ⟨1, 1, 2, 3, 4⟩ 5))).ExchangeInv ∧
    ∃ t, step ((accepted strict .chipinfo 0#7 0#32).hold (.xdone (.ok ⟨1, 1, 2, 3, 4⟩ 5))) = .next t := ⟨by decide, ⟨_, rfl⟩⟩

theorem witness_EveryStepKeepsTheResponseRules :
    ((accepted strict .wr 0#7 0#32).hold (.xdone (.ok ⟨0, 1, 2, 3, 4⟩ 5))).ResponseInv ∧
    ∃ t, step ((accepted strict .wr 0#7 0#32).hold (.xdone (.ok ⟨0, 1, 2, 3, 4⟩ 5))) = .next t := ⟨by decide, ⟨_, rfl⟩⟩

theorem witness_GoodStatesStopForOutsideReasonsOnly :
    State.reset.Inv ∧ ((accepted fullOnly .rd 0#7 0#32).hold (.xdone (.ok ⟨0, 0, 0, 0, 0⟩ 4))).Inv ∧
    (State.reset.hold (.accept 0x18000000000#41)).Inv := by decide

/-- A relabelling that makes two kinds one. -/
theorem witness_KindsAreCarriedAndNeverInterpreted :
    (failed.mapKind fun _ => ()).rspKind = some () ∧
    (failed.mapKind fun k => k.tag + 1).hist = [.issue ⟨0, 0, 0, 0, 0⟩, .done (.fail 8)] := by decide

/-- With a command waiting first, with one waiting behind an answer, with none, and with the port ready. -/
theorem witness_DroppedCommandIsLost :
    waiting.cmdReady = false ∧ waiting.offers = [] ++ .accept 0x02000000000#41 :: waiting.offers.tail ∧
    (∀ v, Event.accept v ∉ ([] : List (Event TKind))) ∧
    waiting.dropCommand.offers = [.xdone (.ok ⟨0x12#8, 1, 2, 3, 4⟩ 5)] ++ .accept 0x02100000000#41 :: [] ∧
    (∀ v, Event.accept v ∉ ([.xdone (.ok ⟨0x12#8, 1, 2, 3, 4⟩ 5)] : List (Event TKind))) ∧
    (∀ v, Event.accept v ∉ held.offers) ∧ held.cmdReady = false ∧ State.reset.cmdReady = true :=
  ⟨by decide, by decide, by simp, by decide, by simp, by simp [held, accepted, State.Of.launch], by decide, by decide⟩

end Sys2Proof.Tests
end

section
/-! SUPPORT. Relabelling the kinds of a state (spec/00_scope.md R8, spec/60_exceptions.md R182) commutes with every operation of
the machine: first the updates of the state, then the halves of an exchange, then the selection of an event, and
from these `execAt` and `stepAt`. -/

namespace Sys2Proof.Machine

variable {K L : Type} (f : K → L)

/-! ### Outcomes -/

@[simp] theorem mapNext_next {σ τ φ ρ : Type} (g : σ → τ) (s : σ) :
    mapNext g (.next s : Host.Outcome σ φ ρ) = .next (g s) := rfl
@[simp] theorem mapNext_fault {σ τ φ ρ : Type} (g : σ → τ) (r : φ) :
    mapNext g (.fault r : Host.Outcome σ φ ρ) = .fault r := rfl
@[simp] theorem mapNext_refused {σ τ φ ρ : Type} (g : σ → τ) (r : ρ) :
    mapNext g (.refused r : Host.Outcome σ φ ρ) = .refused r := rfl

/-! ### Updates of a state -/

@[simp] theorem State.Of.mapKind_setPhase (p : Phase) (s : State.Of K) :
    (s.setPhase p).mapKind f = (s.mapKind f).setPhase p := rfl
@[simp] theorem State.Of.mapKind_setCmd (c : Option Command) (s : State.Of K) :
    (s.setCmd c).mapKind f = (s.mapKind f).setCmd c := rfl
@[simp] theorem State.Of.mapKind_setBuf (b : Option Bytes5) (s : State.Of K) :
    (s.setBuf b).mapKind f = (s.mapKind f).setBuf b := rfl
@[simp] theorem State.Of.mapKind_setOffers (es : List (Event K)) (s : State.Of K) :
    (s.setOffers es).mapKind f = (s.mapKind f).setOffers (es.map (Event.mapKind f)) := rfl
@[simp] theorem State.Of.mapKind_hold (e : Event K) (s : State.Of K) :
    (s.hold e).mapKind f = (s.mapKind f).hold (e.mapKind f) := rfl
@[simp] theorem State.Of.mapKind_log (r : Record K) (s : State.Of K) :
    (s.log r).mapKind f = (s.mapKind f).log (r.mapKind f) := by
  simp [State.Of.mapKind, State.Of.log]
@[simp] theorem State.Of.mapKind_take (r : Response K) (s : State.Of K) :
    (s.take r).mapKind f = (s.mapKind f).take (r.mapKind f) := by
  simp [State.Of.mapKind, State.Of.take]
@[simp] theorem State.Of.mapKind_respond (st : Status) (d : Payload) (k : Option K) (s : State.Of K) :
    (s.respond st d k).mapKind f = (s.mapKind f).respond st d (k.map f) := rfl
@[simp] theorem State.Of.mapKind_clear (s : State.Of K) : s.clear.mapKind f = (s.mapKind f).clear := rfl

@[simp] theorem State.Of.mapKind_raise_communication (k : K) (s : State.Of K) :
    (s.raise (.communication k)).mapKind f = (s.mapKind f).raise (.communication (f k)) := rfl
@[simp] theorem State.Of.mapKind_raise_parse (s : State.Of K) :
    (s.raise .parse).mapKind f = (s.mapKind f).raise .parse := rfl
@[simp] theorem State.Of.mapKind_raise_unexpectedReply (s : State.Of K) :
    (s.raise .unexpectedReply).mapKind f = (s.mapKind f).raise .unexpectedReply := rfl

@[simp] theorem State.Of.mapKind_issue (fr : Frame) (s : State.Of K) :
    (s.issue fr).mapKind f = (s.mapKind f).issue fr := State.Of.mapKind_log f (.issue _) _
@[simp] theorem State.Of.mapKind_accept (op : Op) (a : Address) (d : Payload) (s : State.Of K) :
    (s.accept op a d).mapKind f = (s.mapKind f).accept op a d := by
  simp [State.Of.accept]
@[simp] theorem State.Of.mapKind_consume (s : State.Of K) : s.consume.mapKind f = (s.mapKind f).consume := by
  rw [State.Of.consume, State.Of.mapKind_clear, State.Of.mapKind_take]
  rfl
@[simp] theorem State.Of.mapKind_rst (s : State.Of K) : s.rst.mapKind f = (s.mapKind f).rst :=
  State.Of.mapKind_log f .reset s.clear

/-! ### The issue half and the completion half of an exchange -/

theorem presentCommand_mapKind (op : Op) (a : Address) (d : Payload) (s : State.Of K) :
    presentCommand op a d (s.mapKind f) = mapNext (State.Of.mapKind f) (presentCommand op a d s) := by
  unfold presentCommand
  by_cases hp : s.phase = .idle
  · simp [hp]
  · simp [hp, Event.mapKind]

theorem complete_mapKind (c : Command) (r : Frame) (s : State.Of K) :
    complete c r (s.mapKind f) = mapNext (State.Of.mapKind f) (complete c r s) := by
  unfold complete
  rw [State.Of.mapKind_phase]
  split
  case h_1 => simp [completeRd]
  case h_2 => simp [completeWr]
  case h_3 => simp [continueChipinfo]
  case h_4 => simp [completeChipinfo]
  case h_5 => rfl

theorem onReply_mapKind (r : Frame) (s : State.Of K) :
    onReply r (s.mapKind f) = mapNext (State.Of.mapKind f) (onReply r s) := by
  unfold onReply
  rw [State.Of.mapKind_cmd, State.Of.mapKind_par, State.Of.mapKind_phase]
  cases s.cmd with
  | none => rfl
  | some c =>
    cases hm : replyMismatch s.par c s.phase r with
    | true => simp [hm]
    | false => simpa [hm] using complete_mapKind f c r s

theorem onReceived_mapKind (rx : Bytes5) (n : Fin 6) (s : State.Of K) :
    onReceived rx n (s.mapKind f) = mapNext (State.Of.mapKind f) (onReceived rx n s) := by
  unfold onReceived
  cases decodeFrame (receivedOctets rx n) with
  | parseError => simp
  | frame r => exact onReply_mapKind f r s

theorem xdone_mapKind (o : Answer K) (s : State.Of K) :
    xdone (o.mapKind f) (s.mapKind f) = mapNext (State.Of.mapKind f) (xdone o s) := by
  cases o with
  | fail k => simp [xdone, Answer.mapKind, Record.mapKind]
  | ok rx n =>
    simpa [xdone, Answer.mapKind, Record.mapKind] using
      onReceived_mapKind f rx n ((s.log (.done (.ok rx n))).setBuf (some rx))

@[simp] theorem Answer.mapKind_admitted (p : Params) (o : Answer K) : (o.mapKind f).admitted p = o.admitted p := by
  cases o <;> rfl

theorem transportAnswer_mapKind (o : Answer K) (s : State.Of K) :
    transportAnswer (o.mapKind f) (s.mapKind f) = mapNext (State.Of.mapKind f) (transportAnswer o s) := by
  cases hp : s.phase.outstanding with
  | false => simp [transportAnswer, hp, Event.mapKind]
  | true =>
    cases ha : o.admitted s.par with
    | true =>
      rw [transportAnswer_outstanding hp ha, transportAnswer_outstanding (s := s.mapKind f) hp (by simpa using ha)]
      exact xdone_mapKind f o s
    | false =>
      cases o with
      | fail k => cases ha
      | ok rx n =>
        have ha' : (Answer.ok rx n : Answer L).admitted s.par = false := ha
        simp [transportAnswer, hp, ha, ha', Answer.mapKind]

/-! ### Events -/

@[simp] theorem Event.mapKind_enabledIn (p : Phase) (e : Event K) : (e.mapKind f).enabledIn p = e.enabledIn p := by
  cases e <;> rfl

/-- A kind carries no instruction, and no part of one. -/
@[simp] theorem Event.mapKind_instr (e : Event K) : (e.mapKind f).instr = e.instr := by
  cases e with
  | xdone o => cases o <;> rfl
  | accept w => rfl
  | consume => rfl
  | reset => rfl

/-- Relabelling changes neither which offer is selected nor the order of the others. -/
theorem nextOffer_map_mapKind (p : Phase) (es : List (Event K)) :
    nextOffer p (es.map (Event.mapKind f)) =
      (nextOffer p es).map (Prod.map (Event.mapKind f) (List.map (Event.mapKind f))) := by
  induction es with
  | nil => rfl
  | cons e es ih =>
    cases he : e.enabledIn p with
    | true => simp [nextOffer, he]
    | false => cases hn : nextOffer p es <;> simp [nextOffer, he, ih, hn]

theorem performEvent_mapKind (e : Event K) (s : State.Of K) :
    performEvent (e.mapKind f) (s.mapKind f) = mapNext (State.Of.mapKind f) (performEvent e s) := by
  cases e with
  | accept w => rfl
  | xdone o => exact transportAnswer_mapKind f o s
  | consume =>
    by_cases hp : s.phase = .resp
    · simp [performEvent, Event.mapKind, hp]
    · simp [performEvent, Event.mapKind, hp]
  | reset => simp [performEvent, Event.mapKind]

/-! ### Instructions and the step -/

theorem execAt_mapKind (i : Instr) (s : State.Of K) :
    execAt L i (s.mapKind f) = mapNext (State.Of.mapKind f) (execAt K i s) := by
  cases i with
  | rd a d => exact presentCommand_mapKind f .rd a d s
  | wr a d => exact presentCommand_mapKind f .wr a d s
  | chipinfo a d => exact presentCommand_mapKind f .chipinfo a d s
  | frameRd a p => exact transportAnswer_mapKind f (.ok _ 5) s
  | frameWr a p => exact transportAnswer_mapKind f (.ok _ 5) s

theorem stepAt_mapKind (s : State.Of K) :
    stepAt L (s.mapKind f) = mapNext (State.Of.mapKind f) (stepAt K s) := by
  unfold stepAt stepWith
  rw [State.Of.mapKind_phase, State.Of.mapKind_offers, nextOffer_map_mapKind]
  cases nextOffer s.phase s.offers with
  | none => rfl
  | some q =>
    obtain ⟨e, rest⟩ := q
    simp only [Option.map_some, Prod.map_apply, Event.mapKind_instr, ← State.Of.mapKind_setOffers]
    cases e.instr with
    | none => exact performEvent_mapKind f e (s.setOffers rest)
    | some i => exact execAt_mapKind f i (s.setOffers rest)

/-- The host's dispatch is the dispatch at its own TKind (log 3). -/
theorem exec_eq_execAt (i : Instr) (s : State) : exec i s = execAt TKind i s := by
  cases i <;> rfl

/-- The host's step is the step at its own TKind (log 3). -/
theorem step_eq_stepAt (s : State) : step s = stepAt TKind s :=
  congrArg (stepWith · s) (funext₂ exec_eq_execAt)

/-- Settles O59: relabelling commutes with the operations that `execAt` and `stepAt` are made of. -/
theorem kindsAreCarriedAndNeverInterpreted : Obligations.KindsAreCarriedAndNeverInterpreted :=
  ⟨fun _ _ f s => ⟨fun i => execAt_mapKind f i s, stepAt_mapKind f s⟩, exec_eq_execAt, step_eq_stepAt⟩

end Sys2Proof.Machine
end

section
/-! SUPPORT. The statements of spec/10_state.md: what a command and a whole frame reach in `exec`, what every step can do (one
of the four events of R36, at the state without its offer), and when a read of a port answers (R21). -/

namespace Sys2Proof.Machine

/-! ### What an instruction reaches -/

/-- The three commands are the presentation of their operation, address and data. -/
theorem exec_command {i : Instr} {a : Address} {d : Payload} (hi : i = .rd a d ∨ i = .wr a d ∨ i = .chipinfo a d) :
    ∃ op, ∀ s : State, exec i s = presentCommand op a d s := by
  obtain rfl | rfl | rfl := hi
  · exact ⟨.rd, fun _ => rfl⟩
  · exact ⟨.wr, fun _ => rfl⟩
  · exact ⟨.chipinfo, fun _ => rfl⟩

/-- A command word that decodes is one of the three commands, with the word's own fields (R88). -/
theorem decodeCommand_ok {w : CommandWord} {i : Instr} (h : decodeCommand w = .ok i) :
    i = .rd w.addr w.data ∨ i = .wr w.addr w.data ∨ i = .chipinfo w.addr w.data := by
  unfold decodeCommand at h
  split_ifs at h <;> cases h
  · exact .inl rfl
  · exact .inr (.inl rfl)
  · exact .inr (.inr rfl)

/-- The instruction of a command word on the port is what the word decodes to. -/
theorem instr_accept {K : Type} {w : CommandWord} {i : Instr} (h : (Event.accept w : Event K).instr = some i) :
    decodeCommand w = .ok i := by
  change (decodeCommand w).toOption = some i at h
  cases hw : decodeCommand w with
  | error e =>
    rw [hw] at h
    cases h
  | ok j =>
    rw [hw] at h
    cases h
    rfl

/-- The instruction of a frame is the transport's answer with the frame's five octets (R118, R119). -/
theorem exec_frame_instr (f : Frame) (s : State) : exec f.instr s = transportAnswer (.ok (encodeFrame f) 5) s := by
  obtain ⟨dir, a, p⟩ := f
  cases dir <;> rfl

/-- ACCEPT is enabled in IDLE and takes the command there (R36, R40). -/
theorem presentCommand_idle {K : Type} {s : State.Of K} (hp : s.phase = .idle) (op : Op) (a : Address) (d : Payload) :
    presentCommand op a d s = .next (s.accept op a d) :=
  if_pos hp

/-! ### What a step can do -/

/-- What the four events of R36 do to a state, with the condition each is enabled under: ACCEPT, XDONE, CONSUME, RESET. -/
inductive EventRel (s : State) : State → Prop where
  | accept (op : Op) (a : Address) (d : Payload) (hp : s.phase = .idle) : EventRel s (s.accept op a d)
  | xdone (o : Answer TKind) {t : State} (hp : s.phase.outstanding = true) (ha : o.admitted s.par = true)
      (h : xdone o s = .next t) : EventRel s t
  | consume (hp : s.phase = .resp) : EventRel s s.consume
  | reset : EventRel s s.rst

/-- An answer to an outstanding exchange is performed as XDONE. -/
theorem eventRel_of_transportAnswer {o : Answer TKind} {s t : State} (hp : s.phase.outstanding = true)
    (h : transportAnswer o s = .next t) : EventRel s t := by
  obtain ⟨-, ha, hx⟩ | ⟨hn, -⟩ := transportAnswer_next h
  · exact .xdone o hp ha hx
  · exact absurd (hp.symm.trans hn) (by decide)

/-- The instruction of an enabled event does what the event does: a command word's is ACCEPT, a whole frame's is XDONE. -/
theorem eventRel_of_exec {e : Event TKind} {i : Instr} {s t : State} (he : e.enabledIn s.phase = true)
    (hi : e.instr = some i) (h : exec i s = .next t) : EventRel s t := by
  cases e with
  | accept w =>
    have hp : s.phase = .idle := enabledIn_accept.mp he
    obtain ⟨op, hop⟩ := exec_command (decodeCommand_ok (instr_accept hi))
    rw [hop, presentCommand_idle hp] at h
    cases h
    exact .accept op w.addr w.data hp
  | xdone o =>
    obtain ⟨rx, -, rfl⟩ := instr_xdone hi
    rw [exec_frame_instr] at h
    exact eventRel_of_transportAnswer he h
  | consume => cases hi
  | reset => cases hi

/-- An enabled event without an instruction does what R36 says of it; a reserved command word does nothing. -/
theorem eventRel_of_performEvent {e : Event TKind} {s t : State} (he : e.enabledIn s.phase = true)
    (h : performEvent e s = .next t) : EventRel s t := by
  cases e with
  | accept w => cases h
  | xdone o => exact eventRel_of_transportAnswer he h
  | consume =>
    have hp : s.phase = .resp := enabledIn_consume.mp he
    rw [performEvent, if_pos hp] at h
    cases h
    exact .consume hp
  | reset =>
    cases h
    exact .reset

/-- Every step to a next state is one of the four events, at the state without the offer it uses up. -/
theorem step_eventRel {s t : State} (h : step s = .next t) : ∃ rest, EventRel (s.setOffers rest) t := by
  obtain ⟨e, pre, post, -, he, -, ⟨i, hi, hx⟩ | ⟨-, hx⟩⟩ := step_next h
  · exact ⟨pre ++ post, eventRel_of_exec he hi hx⟩
  · exact ⟨pre ++ post, eventRel_of_performEvent he hx⟩

/-! ### What XDONE leaves in the history -/

/-- XDONE only appends to the history (R37). -/
theorem xdone_hist {K : Type} {o : Answer K} {s t : State.Of K} (h : xdone o s = .next t) : ∃ r, t.hist = s.hist ++ r := by
  obtain ⟨-, hh⟩ | ⟨-, -, -, hh⟩ := xdone_phases h
  · exact ⟨_, hh⟩
  · exact ⟨_, hh⟩

/-! ### When a read of a port answers (R21) -/

section Reads

variable {K : Type} {s : State.Of K}

/-- A field's read answers exactly the value the field holds. -/
theorem readField_ok {α : Type} {f : FieldName} {x : Option α} {v : α} : readField f x = .ok v ↔ x = some v := by
  cases x <;> simp [readField]

/-- A field's read faults exactly while the field is UNSPEC. -/
theorem readField_error {α : Type} {f : FieldName} {x : Option α} : readField f x = .error (.readUnspec f) ↔ x = none := by
  cases x <;> simp [readField]

theorem readRspStatus_ok {st : Status} : s.readRspStatus = .ok st ↔ s.rspValid = true ∧ s.rspStatus = some st := by
  cases hv : s.rspValid <;> simp [State.Of.readRspStatus, hv, readField_ok]

theorem readRspStatus_error :
    s.readRspStatus = .error (.readUnspec .rspStatus) ↔ s.rspValid = false ∨ s.rspStatus = none := by
  cases hv : s.rspValid <;> simp [State.Of.readRspStatus, hv, readField_error]

theorem readRspData_ok {d : Payload} : s.readRspData = .ok d ↔ s.rspValid = true ∧ s.rspData = some d := by
  cases hv : s.rspValid <;> simp [State.Of.readRspData, hv, readField_ok]

theorem readRspData_error : s.readRspData = .error (.readUnspec .rspData) ↔ s.rspValid = false ∨ s.rspData = none := by
  cases hv : s.rspValid <;> simp [State.Of.readRspData, hv, readField_error]

theorem readRspKind_ok {k : K} :
    s.readRspKind = .ok k ↔ (s.rspValid = true ∧ s.rspStatus = some .commErr) ∧ s.rspKind = some k := by
  by_cases ha : s.rspValid = true ∧ s.rspStatus = some .commErr
  · rw [State.Of.readRspKind, if_pos ha, readField_ok, and_iff_right ha]
  · simp [State.Of.readRspKind, ha]

theorem readRspKind_error : s.readRspKind = .error (.readUnspec .rspKind) ↔
    ¬ (s.rspValid = true ∧ s.rspStatus = some .commErr) ∨ s.rspKind = none := by
  by_cases ha : s.rspValid = true ∧ s.rspStatus = some .commErr
  · rw [State.Of.readRspKind, if_pos ha, readField_error, or_iff_right (not_not.mpr ha)]
  · simp [State.Of.readRspKind, ha]

/-- In a good state in RESP the registers hold a response, with a kind where the status is COMM_ERR (R163, R26, R181). -/
theorem Good.response {s : State.Of K} (hg : s.Good) (hp : s.phase = .resp) : s.rspValid = true ∧
    ∃ st d, s.rspStatus = some st ∧ s.rspData = some d ∧ (st = .commErr → ∃ k, s.rspKind = some k) := by
  obtain ⟨⟨hvalid, -⟩, -, -, hheld, hkind, -⟩ := hg
  obtain ⟨hst, hd⟩ := hheld hp
  obtain ⟨st, hst⟩ := Option.isSome_iff_exists.mp hst
  obtain ⟨d, hd⟩ := Option.isSome_iff_exists.mp hd
  refine ⟨hvalid.mpr hp, st, d, hst, hd, ?_⟩
  rintro rfl
  exact Option.isSome_iff_exists.mp ((hkind hp).mpr hst)

end Reads

/-! ### The statements -/

/-- Settles O20: each command is ACCEPT, whose request frame is made from the command and the parameters. -/
theorem acceptDependsOnTheCommandOnly : Obligations.AcceptDependsOnTheCommandOnly := by
  intro s t a d i hs ht hpar hi
  obtain ⟨op, hop⟩ := exec_command hi
  refine ⟨s.accept op a d, t.accept op a d, [.issue (encodeFrame (firstRequest s.par op a d))],
    (hop s).trans (presentCommand_idle hs op a d), (hop t).trans (presentCommand_idle ht op a d), rfl, rfl, ?_, rfl, ?_⟩
  · simp [hpar]
  · simp [hpar]

/-- Settles O33, from the selection of the oldest enabled offer. -/
theorem stepPerformsTheOldestEnabledOffer : Obligations.StepPerformsTheOldestEnabledOffer := by
  intro s e pre post hs hpre he
  rw [step_eq, hs, nextOffer_append hpre he]
  cases hi : e.instr with
  | none =>
    simp only [hi]
    rfl
  | some i =>
    simp only [hi]
    rfl

/-- Settles O43: each of the four events is its own rows of the table; XDONE is three of them. -/
theorem phaseMovesOnlyAlongTheTable : Obligations.PhaseMovesOnlyAlongTheTable := by
  intro s t h
  obtain ⟨rest, hr⟩ := step_eventRel h
  cases hr with
  | accept op a d hp => exact .inl ⟨hp, rfl, _, rfl⟩
  | xdone o hp _ hx =>
    obtain ⟨ht, hh⟩ | ⟨hx1, hc, ht, hh⟩ := xdone_phases hx
    · obtain hp | hp := outstanding_iff.mp hp
      · exact .inr (.inl ⟨hp, ht, o, hh⟩)
      · exact .inr (.inr (.inr (.inl ⟨hp, ht, o, hh⟩)))
    · exact .inr (.inr (.inl ⟨hx1, ht, hc, o, _, hh⟩))
  | consume hp => exact .inr (.inr (.inr (.inr (.inl ⟨hp, rfl, rfl⟩))))
  | reset => exact .inr (.inr (.inr (.inr (.inr ⟨rfl, rfl⟩))))

/-- Settles O44: no event writes a parameter or removes a record, and CONSUME alone records a response. -/
theorem parametersConstantAndHistoryGrows : Obligations.ParametersConstantAndHistoryGrows := by
  intro s t h
  obtain ⟨rest, hr⟩ := step_eventRel h
  cases hr with
  | accept op a d hp => exact ⟨rfl, ⟨_, rfl⟩, .inl rfl⟩
  | xdone o _ _ hx =>
    obtain ⟨hpar, -, -, htaken⟩ := xdone_frame hx
    obtain ⟨r, hhist⟩ := xdone_hist hx
    exact ⟨hpar, ⟨r, hhist⟩, .inl htaken⟩
  | consume hp => exact ⟨rfl, ⟨[], (List.append_nil _).symm⟩, .inr ⟨hp, rfl, rfl⟩⟩
  | reset => exact ⟨rfl, ⟨_, rfl⟩, .inl rfl⟩

/-- Settles O50: each clause is one direction of what the port's read answers; a good state's response is readable. -/
theorem responseReadsFollowTheReadingRule : Obligations.ResponseReadsFollowTheReadingRule := by
  refine ⟨fun s => ⟨fun hv => ⟨readRspStatus_error.mpr (.inl hv), readRspData_error.mpr (.inl hv), ?_⟩,
    fun hst => readRspKind_error.mpr (.inl fun ha => hst ha.2),
    fun hn => readRspStatus_error.mpr (.inr hn), fun hn => readRspData_error.mpr (.inr hn),
    fun hn => readRspKind_error.mpr (.inr hn), readField_error.mpr, readField_error.mpr,
    fun _ hv hst => readRspStatus_ok.mpr ⟨hv, hst⟩, fun _ hv hd => readRspData_ok.mpr ⟨hv, hd⟩,
    fun _ hv hst hk => readRspKind_ok.mpr ⟨⟨hv, hst⟩, hk⟩, fun _ => readField_ok.mpr, fun _ => readField_ok.mpr⟩, ?_⟩
  · exact readRspKind_error.mpr (.inl fun ha => by simp [hv] at ha)
  · intro s hg hp
    obtain ⟨hv, st, d, hst, hd, hkind⟩ := Good.response hg hp
    refine ⟨st, d, hst, hd, readRspStatus_ok.mpr ⟨hv, hst⟩, readRspData_ok.mpr ⟨hv, hd⟩, ?_⟩
    rintro rfl
    obtain ⟨k, hk⟩ := hkind rfl
    exact ⟨k, hk, readRspKind_ok.mpr ⟨⟨hv, hst⟩, hk⟩⟩

/-- Settles O51: RESET and the launch state write the same values. -/
theorem launchIsTheStateAfterReset : Obligations.LaunchIsTheStateAfterReset := by
  refine ⟨fun _ => rfl, ?_, fun _ => rfl⟩
  rintro _ s rfl
  exact ⟨rfl, rfl, rfl, rfl, rfl, rfl, rfl, rfl, rfl⟩

end Sys2Proof.Machine
end

section
/-! SUPPORT. The statements of spec/20_memory.md: the payload's octets (R53), the order in which the caller's commands are taken
(R67), and one exchange at a time (R66, R24). -/

namespace Sys2Proof.Machine

/-! ### The octets of a frame (R53, R112) -/

/-- Octet 0 is `0x80 + a` for a write and `a` for a read (R112). -/
theorem encodeFrame_octet0 (d : Dir) (a : Address) (p : Payload) :
    (encodeFrame { direction := d, address := a, payload := p }).b0 =
      if d = .write then 0x80#8 + a.setWidth 8 else a.setWidth 8 := by
  cases d <;> revert a <;> simp only [encodeFrame, Dir.mask] <;> decide

/-- Octets 1 to 4 are the payload's octets, the most significant first: the payload that decoding joins from them (R114) is cut
into the same octets again. -/
theorem octets_of_frame_payload (bs : Bytes5) :
    bs.b1 = bs.frame.payload.extractLsb' 24 8 ∧ bs.b2 = bs.frame.payload.extractLsb' 16 8 ∧
    bs.b3 = bs.frame.payload.extractLsb' 8 8 ∧ bs.b4 = bs.frame.payload.extractLsb' 0 8 := by
  have above {w start : Nat} (x : BitVec w) (y : Octet) (h : 8 ≤ start) :
      (x ++ y).extractLsb' start 8 = x.extractLsb' (start - 8) 8 := BitVec.extractLsb'_append_eq_of_le h
  refine ⟨?_, ?_, ?_, ?_⟩ <;> symm
  · calc (bs.b1 ++ bs.b2 ++ bs.b3 ++ bs.b4).extractLsb' 24 8
      _ = (bs.b1 ++ bs.b2 ++ bs.b3).extractLsb' 16 8 := above _ _ (by decide)
      _ = (bs.b1 ++ bs.b2).extractLsb' 8 8 := above _ _ (by decide)
      _ = bs.b1 := BitVec.extractLsb'_append_eq_left
  · calc (bs.b1 ++ bs.b2 ++ bs.b3 ++ bs.b4).extractLsb' 16 8
      _ = (bs.b1 ++ bs.b2 ++ bs.b3).extractLsb' 8 8 := above _ _ (by decide)
      _ = (bs.b1 ++ bs.b2).extractLsb' 0 8 := above _ _ (by decide)
      _ = bs.b2 := BitVec.extractLsb'_append_eq_right
  · calc (bs.b1 ++ bs.b2 ++ bs.b3 ++ bs.b4).extractLsb' 8 8
      _ = (bs.b1 ++ bs.b2 ++ bs.b3).extractLsb' 0 8 := above _ _ (by decide)
      _ = bs.b3 := BitVec.extractLsb'_append_eq_right
  · exact BitVec.extractLsb'_append_eq_right

/-- Settles O2: ENCODE's octets by its definition, the octets of a decoded frame by `octets_of_frame_payload`. -/
theorem payloadIsBigEndianBothWays : Obligations.PayloadIsBigEndianBothWays := by
  refine ⟨fun _ => ⟨rfl, rfl, rfl, rfl⟩, fun d a => ?_, ?_⟩
  · have hoctets : (0x01020304#32).extractLsb' 24 8 = 0x01#8 ∧ (0x01020304#32).extractLsb' 16 8 = 0x02#8 ∧
        (0x01020304#32).extractLsb' 8 8 = 0x03#8 ∧ (0x01020304#32).extractLsb' 0 8 = 0x04#8 := by decide
    rw [Bytes5.mk.injEq]
    exact ⟨encodeFrame_octet0 d a 0x01020304#32, hoctets⟩
  · intro bs f h
    obtain rfl : bs.frame = f := Decoded.frame.inj h
    exact octets_of_frame_payload bs

/-! ### The order of the caller's commands (R67) -/

/-- The command word an offer presents. -/
def Event.commandWord? {K : Type} : Event K → Option CommandWord
  | .accept w => some w
  | .xdone _  => none
  | .consume  => none
  | .reset    => none

/-- The command words the caller still offers, oldest first. -/
def offeredCommands {K : Type} (es : List (Event K)) : List CommandWord := es.filterMap Event.commandWord?

theorem offeredCommands_append {K : Type} (es fs : List (Event K)) :
    offeredCommands (es ++ fs) = offeredCommands es ++ offeredCommands fs :=
  List.filterMap_append

theorem offeredCommands_cons_accept {K : Type} (w : CommandWord) (es : List (Event K)) :
    offeredCommands (.accept w :: es) = w :: offeredCommands es := rfl

theorem offeredCommands_cons_none {K : Type} {e : Event K} (h : e.commandWord? = none) (es : List (Event K)) :
    offeredCommands (e :: es) = offeredCommands es :=
  List.filterMap_cons_none h

/-- Offers that are not enabled in IDLE present no command. -/
theorem offeredCommands_of_disabled {K : Type} {es : List (Event K)} (h : ∀ x ∈ es, x.enabledIn .idle = false) :
    offeredCommands es = [] := by
  refine List.filterMap_eq_nil_iff.mpr fun x hx => ?_
  cases x with
  | accept w => exact absurd (h _ hx) (by simp [Event.enabledIn])
  | xdone o => rfl
  | consume => rfl
  | reset => rfl

/-- The event `e` takes `s` to `t`, by its instruction or as the event it is, while `rest` stays offered. -/
def Performs (e : Event TKind) (rest : List (Event TKind)) (s t : State) : Prop :=
  (∃ i, e.instr = some i ∧ exec i (s.setOffers rest) = .next t) ∨
  (e.instr = none ∧ performEvent e (s.setOffers rest) = .next t)

/-- None of the four events offers or withdraws anything. -/
theorem EventRel.offers {s t : State} (h : EventRel s t) : t.offers = s.offers := by
  cases h with
  | accept op a d hp => rfl
  | xdone o hp ha hx =>
    obtain ⟨-, -, hoffers, -⟩ := xdone_frame hx
    exact hoffers
  | consume hp => rfl
  | reset => rfl

section Performed

variable {e : Event TKind} {rest : List (Event TKind)} {s t : State}

/-- After an enabled event exactly the other offers are left. -/
theorem performs_offers (he : e.enabledIn s.phase = true) (h : Performs e rest s t) : t.offers = rest := by
  obtain ⟨i, hi, hx⟩ | ⟨-, hx⟩ := h
  · exact (eventRel_of_exec (s := s.setOffers rest) he hi hx).offers
  · exact (eventRel_of_performEvent (s := s.setOffers rest) he hx).offers

/-- A command that is taken goes to X1. -/
theorem performs_accept_phase {w : CommandWord} (hp : s.phase = .idle) (h : Performs (.accept w) rest s t) :
    t.phase = .x1 := by
  obtain ⟨i, hi, hx⟩ | ⟨-, hx⟩ := h
  · obtain ⟨op, hop⟩ := exec_command (decodeCommand_ok (instr_accept hi))
    rw [hop, presentCommand_idle (s := s.setOffers rest) hp] at hx
    cases hx
    rfl
  · cases hx

/-- An enabled event that presents no command does not go from IDLE to X1: of the other three only RESET is enabled in IDLE. -/
theorem performs_other_phase (hc : e.commandWord? = none) (he : e.enabledIn s.phase = true) (h : Performs e rest s t) :
    ¬ (s.phase = .idle ∧ t.phase = .x1) := by
  rintro ⟨hs, ht⟩
  rw [hs] at he
  cases e with
  | accept w => cases hc
  | xdone o => cases he
  | consume => cases he
  | reset =>
    obtain ⟨i, hi, -⟩ | ⟨-, hx⟩ := h
    · cases hi
    · cases hx
      cases ht

end Performed

/-- Settles O34: of the commands offered, the selected ACCEPT is the first, since an earlier one would be enabled too; any other
event leaves the commands as they are. -/
theorem commandsAreTakenInTheCallersOrder : Obligations.CommandsAreTakenInTheCallersOrder := by
  intro s t h commands
  have hcommands : commands = offeredCommands :=
    funext fun es => List.filterMap_congr fun e _ => by cases e <;> rfl
  obtain ⟨e, pre, post, hs, he, hpre, hx⟩ := step_next h
  have hperf : Performs e (pre ++ post) s t := hx
  rw [hcommands, hs, performs_offers he hperf, offeredCommands_append, offeredCommands_append]
  cases hc : e.commandWord? with
  | none =>
    rw [offeredCommands_cons_none hc]
    exact .inr ⟨performs_other_phase hc he hperf, rfl⟩
  | some w =>
    obtain rfl : e = .accept w := by cases e <;> cases hc; rfl
    have hp : s.phase = .idle := enabledIn_accept.mp he
    rw [hp] at hpre
    rw [offeredCommands_of_disabled hpre, offeredCommands_cons_accept]
    exact .inl ⟨hp, performs_accept_phase hp hperf, List.cons_ne_nil _ _, rfl⟩

/-! ### One exchange at a time (R66, R24) -/

/-- Records appended to the history are read on from what the history before them left. -/
theorem openExchange_append {K : Type} (h rs : List (Record K)) :
    openExchange (h ++ rs) = rs.foldl advance (openExchange h) :=
  List.foldl_append

/-- XDONE that leaves an exchange outstanding has CHIPINFO's second request in `buf` (R153). -/
theorem xdone_second_buf {K : Type} {o : Answer K} {s t : State.Of K} (h : xdone o s = .next t) (ht : t.phase = .x2) :
    t.buf = some (encodeFrame (secondRequest s.par)) := by
  obtain ⟨k, rfl, rfl⟩ | ⟨rx, n, rfl, h⟩ := xdone_next h
  · cases ht
  · obtain ⟨-, rfl⟩ | ⟨r, -, h⟩ := onReceived_next h
    · cases ht
    · obtain ⟨c, -, ⟨-, rfl⟩ | ⟨-, h⟩⟩ := onReply_next h
      · cases ht
      · obtain ⟨-, -, rfl⟩ | ⟨-, -, rfl⟩ | ⟨-, -, rfl⟩ | ⟨-, -, rfl⟩ := complete_next h
        · cases ht
        · cases ht
        · rfl
        · cases ht

/-- XDONE closes the outstanding exchange; where it issues CHIPINFO's second, that one is open and its request is in `buf`. -/
theorem xdone_exchangeInv {K : Type} {o : Answer K} {s t : State.Of K} (hp : s.phase.outstanding = true)
    (hs : s.ExchangeInv) (h : xdone o s = .next t) : t.ExchangeInv := by
  obtain ⟨hopen, -⟩ := hs
  rw [hp] at hopen
  obtain ⟨ht, hhist⟩ | ⟨-, hop, ht, hhist⟩ := xdone_phases h
  · refine ⟨?_, by simp [ht, Phase.outstanding]⟩
    rw [hhist, openExchange_append, hopen, ht]
    rfl
  · refine ⟨?_, fun _ => ?_⟩
    · rw [hhist, openExchange_append, hopen, ht]
      rfl
    · obtain ⟨c, hc, -⟩ := Option.map_eq_some_iff.mp hop
      obtain ⟨hpar, hcmd, -, -⟩ := xdone_frame h
      rw [xdone_second_buf h ht, hcmd, hc, hpar, ht]
      rfl

/-- Each of the four events keeps the history in order, the phase true to it, and the outstanding request in `buf`. -/
theorem EventRel.keeps_exchangeInv {s t : State} (h : EventRel s t) (hs : s.ExchangeInv) : t.ExchangeInv := by
  have hopen : openExchange s.hist = some s.phase.outstanding := hs.left
  cases h with
  | accept op a d hp =>
    refine ⟨?_, fun _ => rfl⟩
    rw [State.Of.accept_hist, openExchange_append, hopen, hp]
    rfl
  | xdone o hp _ hx => exact xdone_exchangeInv hp hs hx
  | consume hp =>
    refine ⟨?_, fun ho => by cases ho⟩
    rw [State.Of.consume_hist, hopen, hp]
    rfl
  | reset =>
    refine ⟨?_, fun ho => by cases ho⟩
    rw [State.Of.rst_hist, openExchange_append, hopen]
    cases s.phase <;> rfl

/-- Settles O54: the step is one of the four events at the state without its offer, and each keeps the invariant. -/
theorem everyStepKeepsOneExchangeAtATime : Obligations.EveryStepKeepsOneExchangeAtATime := by
  intro s t hs h
  obtain ⟨rest, hr⟩ := step_eventRel h
  exact hr.keeps_exchangeInv hs

end Sys2Proof.Machine
end

section
/-! SUPPORT. The statements of spec/30_encoding.md: the wire frame as octets, as a word and as fields (R81, R82, R84), the
command word and its fields (R87 to R89), the assembler (R93, R94), and the request frames and replies of the commands (R90 to
R92). -/

namespace Sys2Proof

/-! ### Octet 0 (R82) -/

theorem octetDir_write (b : Octet) : octetDir b = .write ↔ b.getLsbD 7 = true := by
  revert b
  decide

theorem octetDir_read (b : Octet) : octetDir b = .read ↔ b.getLsbD 7 = false := by
  revert b
  decide

theorem octetAddress_eq_extractLsb' (b : Octet) : octetAddress b = b.extractLsb' 0 7 := by
  revert b
  decide

/-- The direction that ENCODE puts into octet 0 is the one DECODE reads. -/
theorem octetDir_encodeFrame (f : Frame) : octetDir (encodeFrame f).b0 = f.direction := by
  obtain ⟨d, a, p⟩ := f
  have h : ∀ a : Address, octetDir (d.mask ||| (a.setWidth 8 &&& addrMask)) = d := by
    cases d <;> decide
  exact h a

/-- The address that ENCODE puts into octet 0 is the one DECODE reads. -/
theorem octetAddress_encodeFrame (f : Frame) : octetAddress (encodeFrame f).b0 = f.address := by
  obtain ⟨d, a, p⟩ := f
  have h : ∀ a : Address, octetAddress (d.mask ||| (a.setWidth 8 &&& addrMask)) = a := by
    cases d <;> decide
  exact h a

/-- ENCODE of the direction and the address of an octet 0 is that octet. -/
theorem encode_octet0 (b : Octet) : (octetDir b).mask ||| ((octetAddress b).setWidth 8 &&& addrMask) = b := by
  revert b
  decide

/-! ### The octets of a word (R81) -/

/-- The number that two joined bit vectors are: the first is the more significant. -/
theorem toNat_append_eq {v w : Nat} (x : BitVec v) (y : BitVec w) : (x ++ y).toNat = x.toNat * 2 ^ w + y.toNat := by
  rw [BitVec.toNat_append, ← Nat.shiftLeft_add_eq_or_of_lt y.isLt, Nat.shiftLeft_eq]

/-- The payload of a frame as a number, octet 1 the most significant (R53). -/
theorem frame_payload_toNat (bs : Bytes5) : bs.frame.payload.toNat =
    bs.b1.toNat * 2 ^ 24 + bs.b2.toNat * 2 ^ 16 + bs.b3.toNat * 2 ^ 8 + bs.b4.toNat := by
  have hp : bs.frame.payload.toNat = (bs.b1 ++ bs.b2 ++ bs.b3 ++ bs.b4).toNat := rfl
  rw [hp, toNat_append_eq, toNat_append_eq, toNat_append_eq]
  omega

/-- A 32-bit word is its four octets. -/
theorem payload_of_octets (p : Payload) :
    p.extractLsb' 24 8 ++ p.extractLsb' 16 8 ++ p.extractLsb' 8 8 ++ p.extractLsb' 0 8 = p := by
  rw [BitVec.extractLsb'_append_extractLsb'_eq_extractLsb' (len₁ := 8) rfl,
    BitVec.extractLsb'_append_extractLsb'_eq_extractLsb' (len₁ := 8) rfl,
    BitVec.extractLsb'_append_extractLsb'_eq_extractLsb' (len₁ := 8) rfl]
  exact BitVec.extractLsb'_eq_self

/-- A 40-bit word is its five octets. -/
theorem word_ofWord (F : BitVec 40) : (Bytes5.ofWord F).word = F := by
  simp only [Bytes5.word, Bytes5.ofWord]
  rw [BitVec.extractLsb'_append_extractLsb'_eq_extractLsb' (len₁ := 8) rfl,
    BitVec.extractLsb'_append_extractLsb'_eq_extractLsb' (len₁ := 8) rfl,
    BitVec.extractLsb'_append_extractLsb'_eq_extractLsb' (len₁ := 8) rfl,
    BitVec.extractLsb'_append_extractLsb'_eq_extractLsb' (len₁ := 8) rfl]
  exact BitVec.extractLsb'_eq_self

/-- The word of a frame is octet 0 and, below it, the payload (R81, R82). -/
theorem word_eq_octet0_append_payload (bs : Bytes5) : bs.word = bs.b0 ++ bs.frame.payload := by
  refine BitVec.eq_of_toNat_eq ?_
  rw [toNat_append_eq, frame_payload_toNat, Bytes5.word, toNat_append_eq, toNat_append_eq, toNat_append_eq, toNat_append_eq]
  omega

theorem word_extractLsb'_data (bs : Bytes5) : bs.word.extractLsb' 0 32 = bs.frame.payload := by
  rw [word_eq_octet0_append_payload]
  exact BitVec.extractLsb'_append_eq_right

theorem word_extractLsb'_addr (bs : Bytes5) : bs.word.extractLsb' 32 7 = bs.frame.address := by
  rw [word_eq_octet0_append_payload]
  exact (BitVec.extractLsb'_append_eq_of_le (by decide)).trans (octetAddress_eq_extractLsb' bs.b0).symm

theorem word_getLsbD_dir (bs : Bytes5) : bs.word.getLsbD 39 = bs.b0.getLsbD 7 := by
  rw [word_eq_octet0_append_payload, BitVec.getLsbD_append]
  rfl

/-- The five octets of the word of five octets are these octets. -/
theorem ofWord_word (bs : Bytes5) : Bytes5.ofWord bs.word = bs := by
  have below {start : Nat} (h : start + 8 ≤ 32) :
      bs.word.extractLsb' start 8 = bs.frame.payload.extractLsb' start 8 := by
    rw [word_eq_octet0_append_payload]
    exact BitVec.extractLsb'_append_eq_of_add_le h
  have h0 : bs.word.extractLsb' 32 8 = bs.b0 := by
    rw [word_eq_octet0_append_payload]
    exact BitVec.extractLsb'_append_eq_left
  obtain ⟨h1, h2, h3, h4⟩ := Machine.octets_of_frame_payload bs
  unfold Bytes5.ofWord
  rw [h0, below (by decide), below (by decide), below (by decide), below (by decide), ← h1, ← h2, ← h3, ← h4]

/-! ### Frames and their octets (R120, R121) -/

/-- Decoding the octets of an encoded frame gives the frame back. -/
@[simp] theorem frame_encodeFrame (f : Frame) : (encodeFrame f).frame = f := by
  have hp : (encodeFrame f).frame.payload = f.payload := payload_of_octets f.payload
  calc (encodeFrame f).frame
    _ = ⟨octetDir (encodeFrame f).b0, octetAddress (encodeFrame f).b0, (encodeFrame f).frame.payload⟩ := rfl
    _ = f := by rw [octetDir_encodeFrame, octetAddress_encodeFrame, hp]

/-- Encoding the frame that five octets are gives the octets back. -/
@[simp] theorem encodeFrame_frame (bs : Bytes5) : encodeFrame bs.frame = bs := by
  obtain ⟨h1, h2, h3, h4⟩ := Machine.octets_of_frame_payload bs
  have h0 : (encodeFrame bs.frame).b0 = bs.b0 := encode_octet0 bs.b0
  calc encodeFrame bs.frame
    _ = ⟨(encodeFrame bs.frame).b0, bs.frame.payload.extractLsb' 24 8, bs.frame.payload.extractLsb' 16 8,
          bs.frame.payload.extractLsb' 8 8, bs.frame.payload.extractLsb' 0 8⟩ := rfl
    _ = bs := by rw [h0, ← h1, ← h2, ← h3, ← h4]

/-! ### The command word (R87, R88) -/

/-- The command of an operation, with the two fields of its word (R88). -/
def Op.command : Op → Address → Payload → Instr
  | .rd       => .rd
  | .wr       => .wr
  | .chipinfo => .chipinfo

@[simp] theorem commandWord_op (op : Op) (a : Address) (d : Payload) : (commandWord op a d).op = op.code :=
  calc (op.code ++ a ++ d).extractLsb' 39 2
    _ = (op.code ++ a).extractLsb' 7 2 := BitVec.extractLsb'_append_eq_of_le (by decide)
    _ = op.code := BitVec.extractLsb'_append_eq_left

@[simp] theorem commandWord_addr (op : Op) (a : Address) (d : Payload) : (commandWord op a d).addr = a :=
  calc (op.code ++ a ++ d).extractLsb' 32 7
    _ = (op.code ++ a).extractLsb' 0 7 := BitVec.extractLsb'_append_eq_of_le (by decide)
    _ = a := BitVec.extractLsb'_append_eq_right

@[simp] theorem commandWord_data (op : Op) (a : Address) (d : Payload) : (commandWord op a d).data = d :=
  BitVec.extractLsb'_append_eq_right

/-- A command word is its three fields. -/
theorem commandWord_fields {w : CommandWord} {op : Op} (h : w.op = op.code) : commandWord op w.addr w.data = w := by
  unfold commandWord
  rw [← h, CommandWord.op, CommandWord.addr, CommandWord.data,
    BitVec.extractLsb'_append_extractLsb'_eq_extractLsb' (len₁ := 7) rfl]
  exact BitVec.extractLsb'_append_extractLsb'

/-- An operation field other than 0b11 is the code of an operation (R88, R89). -/
theorem code_of_ne_reserved {x : BitVec 2} (hx : x ≠ 0b11#2) : ∃ op : Op, x = op.code := by
  have hx' : x = 0b00#2 ∨ x = 0b01#2 ∨ x = 0b10#2 := by
    revert x
    decide
  obtain rfl | rfl | rfl := hx'
  · exact ⟨.rd, rfl⟩
  · exact ⟨.wr, rfl⟩
  · exact ⟨.chipinfo, rfl⟩

theorem code_ne_reserved (op : Op) : op.code ≠ 0b11#2 := by
  cases op <;> decide

/-- A word with the code of an operation decodes to the command of the operation, with the word's other fields (R88). -/
theorem decodeCommand_of_code {w : CommandWord} {op : Op} (h : w.op = op.code) :
    decodeCommand w = .ok (op.command w.addr w.data) := by
  unfold decodeCommand
  rw [h]
  cases op <;> rfl

/-- A word with `op = 0b11` is refused (R89). -/
theorem decodeCommand_of_reserved {w : CommandWord} (h : w.op = 0b11#2) : decodeCommand w = .error .reservedOp := by
  unfold decodeCommand
  rw [h]
  rfl

/-- A word is refused as reserved exactly when its operation field is 0b11 (R89). -/
theorem decodeCommand_error_iff {w : CommandWord} : decodeCommand w = .error .reservedOp ↔ w.op = 0b11#2 := by
  refine ⟨fun h => ?_, decodeCommand_of_reserved⟩
  by_contra hne
  obtain ⟨op, hop⟩ := code_of_ne_reserved hne
  rw [decodeCommand_of_code hop] at h
  cases h

/-- What a word decodes to is the command of the operation that its operation field names. -/
theorem decodeCommand_ok_iff {w : CommandWord} {i : Instr} :
    decodeCommand w = .ok i ↔ ∃ op : Op, w.op = op.code ∧ i = op.command w.addr w.data := by
  constructor
  · intro h
    by_cases hr : w.op = 0b11#2
    · rw [decodeCommand_of_reserved hr] at h
      cases h
    · obtain ⟨op, hop⟩ := code_of_ne_reserved hr
      rw [decodeCommand_of_code hop] at h
      exact ⟨op, hop, (Except.ok.inj h).symm⟩
  · rintro ⟨op, hop, rfl⟩
    exact decodeCommand_of_code hop

/-! ### Instructions and what encodes them (R84, R88) -/

theorem encode_command (op : Op) (a : Address) (d : Payload) :
    encode (op.command a d) = .command (commandWord op a d) := by
  cases op <;> rfl

theorem encode_frame_instr (f : Frame) : encode f.instr = .wire (encodeFrame f) := by
  obtain ⟨d, a, p⟩ := f
  cases d <;> rfl

/-- Five octets decode to the instruction of the frame they are, whichever they are (R84, R85). -/
theorem decode_wire (bs : Bytes5) : decode (.wire bs) = .ok bs.frame.instr := rfl

theorem decode_encode_command (op : Op) (a : Address) (d : Payload) :
    decode (encode (op.command a d)) = .ok (op.command a d) := by
  rw [encode_command]
  have h := decodeCommand_of_code (commandWord_op op a d)
  rwa [commandWord_addr, commandWord_data] at h

theorem decode_encode_frame (f : Frame) : decode (encode f.instr) = .ok f.instr := by
  rw [encode_frame_instr, decode_wire, frame_encodeFrame]

/-- Settles O8: every instruction is a command or a frame. -/
theorem decodeOfEncodeIsTheInstruction : Obligations.DecodeOfEncodeIsTheInstruction := by
  intro i
  cases i with
  | rd a d => exact decode_encode_command .rd a d
  | wr a d => exact decode_encode_command .wr a d
  | chipinfo a s => exact decode_encode_command .chipinfo a s
  | frameRd a p => exact decode_encode_frame ⟨.read, a, p⟩
  | frameWr a p => exact decode_encode_frame ⟨.write, a, p⟩

/-- Settles O9: a command word is its three fields, and five octets are the encoding of the frame they are. -/
theorem encodeOfDecodeIsTheWord : Obligations.EncodeOfDecodeIsTheWord := by
  intro e i h
  cases e with
  | command w =>
    obtain ⟨op, hop, rfl⟩ := decodeCommand_ok_iff.mp h
    rw [encode_command, commandWord_fields hop]
  | wire bs =>
    obtain rfl : bs.frame.instr = i := Except.ok.inj h
    rw [encode_frame_instr, encodeFrame_frame]

/-- Settles O4: the fields are octet 0's bits and the number that the four payload octets are. -/
theorem decodeReadsTheWireFields : Obligations.DecodeReadsTheWireFields := by
  intro b0 b1 b2 b3 b4 rest
  exact ⟨frameOfOctets b0 b1 b2 b3 b4, rfl, octetDir_write b0, octetDir_read b0, octetAddress_eq_extractLsb' b0,
    (octetAddress b0).isLt, frame_payload_toNat ⟨b0, b1, b2, b3, b4⟩⟩

/-- A frame's row is chosen by its direction bit (R84). -/
theorem frame_instr_by_bit7 (bs : Bytes5) : bs.frame.instr =
    if bs.b0.getLsbD 7 then .frameWr bs.frame.address bs.frame.payload
    else .frameRd bs.frame.address bs.frame.payload := by
  cases hb : bs.b0.getLsbD 7 with
  | true =>
    have hd : bs.frame.direction = .write := (octetDir_write bs.b0).mpr hb
    simp [Frame.instr, hd]
  | false =>
    have hd : bs.frame.direction = .read := (octetDir_read bs.b0).mpr hb
    simp [Frame.instr, hd]

/-- Settles O7: the word's fields are the fields of the frame its octets are. -/
theorem everyWireWordDecodesByBit39 : Obligations.EveryWireWordDecodesByBit39 := by
  refine ⟨fun bs => ?_, word_ofWord, ofWord_word⟩
  rw [decode_wire, frame_instr_by_bit7, word_getLsbD_dir, word_extractLsb'_addr, word_extractLsb'_data]

/-- The operation field is 0b11 exactly when bits 40 and 39 are both 1. -/
theorem op_reserved_iff_bits (w : CommandWord) : w.op = 0b11#2 ↔ w.getLsbD 40 = true ∧ w.getLsbD 39 = true := by
  have hbits : ∀ x : BitVec 2, x = 0b11#2 ↔ x.getLsbD 1 = true ∧ x.getLsbD 0 = true := by decide
  simpa [CommandWord.op] using hbits w.op

/-- Settles O11: decoding is decided by the operation field alone. -/
theorem onlyOpElevenIsReserved : Obligations.OnlyOpElevenIsReserved := by
  intro w
  refine ⟨decodeCommand_error_iff.trans (op_reserved_iff_bits w), ?_⟩
  have hwf : w.wellFormed = true ↔ w.op ≠ 0b11#2 := by simp [CommandWord.wellFormed, CommandWord.op]
  rw [hwf]
  constructor
  · intro hr
    obtain ⟨op, hop⟩ := code_of_ne_reserved hr
    exact ⟨_, decodeCommand_of_code hop⟩
  · rintro ⟨i, hi⟩
    obtain ⟨op, hop, -⟩ := decodeCommand_ok_iff.mp hi
    exact hop ▸ code_ne_reserved op

end Sys2Proof

namespace Sys2Proof.Machine

/-! ### The assembler (R93, R94) -/

/-- The numbers of an octet vector that assembles are kept whole. -/
theorem toList_of_octetsOf {ns : List Nat} {bs : Bytes5} (h : octetsOf ns = some bs) : bs.toList.map BitVec.toNat = ns := by
  unfold octetsOf at h
  split at h
  · split at h
    · rename_i hlt
      cases h
      simpa [Bytes5.toList] using hlt
    · cases h
  · cases h

/-- A list is an octet vector exactly when it is five numbers below 256. -/
theorem octetsOf_isSome : ∀ ns : List Nat, (octetsOf ns).isSome = (Source.octets ns).wellFormed
  | [] => rfl
  | [_] => rfl
  | [_, _] => rfl
  | [_, _, _] => rfl
  | [_, _, _, _] => rfl
  | [a, b, c, d, e] => Bool.eq_iff_iff.mpr (by simp [octetsOf, Source.wellFormed, frameOctets])
  | _ :: _ :: _ :: _ :: _ :: _ :: _ => by simp [octetsOf, Source.wellFormed, frameOctets]

/-- A line assembles exactly when its numbers fit. -/
theorem assemble_isSome (src : Source) : (assemble src).isSome = src.wellFormed := by
  cases src with
  | rd a => cases h : addrInRange a <;> simp [assemble, Source.wellFormed, h]
  | wr a v => cases h : addrInRange a && valueInRange v <;> simp [assemble, Source.wellFormed, h]
  | chipinfo v => cases h : valueInRange v <;> simp [assemble, Source.wellFormed, h]
  | octets ns => rw [assemble, Option.isSome_map, octetsOf_isSome]

theorem addrInRange_toNat {n : Nat} (h : addrInRange n = true) : (BitVec.ofNat 7 n).toNat = n :=
  Nat.mod_eq_of_lt (of_decide_eq_true h)

theorem valueInRange_toNat {n : Nat} (h : valueInRange n = true) : (BitVec.ofNat 32 n).toNat = n :=
  Nat.mod_eq_of_lt (of_decide_eq_true h)

/-- Settles O13: each number is checked against its field, and a number in range is what the field then holds. -/
theorem assemblerRejectsAndNeverMasks : Obligations.AssemblerRejectsAndNeverMasks := by
  refine ⟨assemble_isSome, fun n i h => ?_, fun n v i h => ?_, fun v i h => ?_, fun ns i h => ?_⟩
  · obtain ⟨hn, hi⟩ := Option.ite_none_right_eq_some.mp h
    exact ⟨_, (Option.some.inj hi).symm, addrInRange_toNat hn⟩
  · obtain ⟨hnv, hi⟩ := Option.ite_none_right_eq_some.mp h
    obtain ⟨hn, hv⟩ := Bool.and_eq_true_iff.mp hnv
    exact ⟨_, _, (Option.some.inj hi).symm, addrInRange_toNat hn, valueInRange_toNat hv⟩
  · obtain ⟨hv, hi⟩ := Option.ite_none_right_eq_some.mp h
    exact ⟨_, (Option.some.inj hi).symm, valueInRange_toNat hv⟩
  · obtain ⟨bs, hbs, hi⟩ := Option.map_eq_some_iff.mp h
    exact ⟨bs, toList_of_octetsOf hbs, congrArg Except.ok hi⟩

/-! ### The commands' request frames (R90) -/

/-- ADDR_MASK takes nothing from an address (R83). -/
theorem address_and_addrMask (a : Address) : a.setWidth 8 &&& addrMask = a.setWidth 8 := by
  revert a
  decide

/-- The octets of the read request of an address (R90). -/
theorem encodeFrame_read (a : Address) :
    encodeFrame { direction := .read, address := a, payload := 0#32 } = ⟨a.setWidth 8, 0#8, 0#8, 0#8, 0#8⟩ := by
  simp [encodeFrame, Dir.mask, address_and_addrMask]

/-- The octets of the write request of a value (R90). -/
theorem encodeFrame_write (a : Address) (d : Payload) :
    encodeFrame { direction := .write, address := a, payload := d } =
      ⟨0x80#8 ||| a.setWidth 8, d.extractLsb' 24 8, d.extractLsb' 16 8, d.extractLsb' 8 8, d.extractLsb' 0 8⟩ := by
  rw [encodeFrame, address_and_addrMask, Dir.mask]

/-- A command in IDLE latches itself and issues its request frame (R141). -/
theorem exec_command_idle {s : State} (hp : s.phase = .idle) (op : Op) (a : Address) (d : Payload) :
    exec (op.command a d) s = .next { s with
      phase := .x1
      cmd := some { op := op, addr := a, data := d }
      buf := some (encodeFrame (firstRequest s.par op a d))
      hist := s.hist ++ [.issue (encodeFrame (firstRequest s.par op a d))] } := by
  have he : exec (op.command a d) s = presentCommand op a d s := by cases op <;> rfl
  rw [he, presentCommand_idle hp]
  rfl

/-- Settles O15: RD's request is the read of its address. -/
theorem rdIssuesItsReadFrame : Obligations.RdIssuesItsReadFrame := by
  intro s a d hp
  rw [← encodeFrame_read a]
  exact exec_command_idle hp .rd a d

/-- Settles O16: WR's request is the write of its value. -/
theorem wrIssuesItsWriteFrame : Obligations.WrIssuesItsWriteFrame := by
  intro s a d hp
  rw [← encodeFrame_write a d]
  exact exec_command_idle hp .wr a d

/-- Settles O17: CHIPINFO's first request is the write of its selector to P_CHIPINFO_ADDR. -/
theorem chipinfoIssuesItsSelectorWrite : Obligations.ChipinfoIssuesItsSelectorWrite := by
  intro s a d hp
  rw [← encodeFrame_write s.par.chipInfoAddr d]
  exact exec_command_idle hp .chipinfo a d

/-! ### Replies that differ in direction or address (R91) -/

/-- The state once the octets of the reply `f` are received, before they are decoded (R142). -/
def State.Of.receive {K : Type} (f : Frame) (s : State.Of K) : State.Of K :=
  (s.log (.done (.ok (encodeFrame f) 5))).setBuf (some (encodeFrame f))

/-- A frame that answers an outstanding exchange is the decoded reply (R142). -/
theorem exec_frame_outstanding {s : State} (hp : s.phase.outstanding = true) (f : Frame) :
    exec f.instr s = onReply f (s.receive f) := by
  have hx : xdone (.ok (encodeFrame f) 5) s = onReply (encodeFrame f).frame (s.receive f) := rfl
  rw [exec_frame_instr, transportAnswer_outstanding hp rfl, hx, frame_encodeFrame]

/-- The strict check's verdict is the same for equal addresses, and for any two while it is off (R144). -/
theorem replyMismatch_congr {p : Params} {f g : Frame} (h : f.address = g.address ∨ p.strictReplyCheck = false)
    (c : Command) (ph : Phase) : replyMismatch p c ph f = replyMismatch p c ph g := by
  obtain h | h := h
  · simp [replyMismatch, h]
  · simp [replyMismatch, h]

section Rows

variable {K : Type} {s : State.Of K} {c : Command} {r : Frame}

/-- A decoded reply to a latched command: the strict check, then the command's own completion (R142, R144). -/
theorem onReply_of_cmd (hc : s.cmd = some c) : onReply r s =
    if replyMismatch s.par c s.phase r = true then .next (s.raise .unexpectedReply) else complete c r s := by
  cases hm : replyMismatch s.par c s.phase r <;> simp [onReply, hc, hm]

theorem complete_rd (hop : c.op = .rd) (hp : s.phase = .x1) : complete c r s = .next (completeRd r s) := by
  simp [complete, hop, hp]

theorem complete_wr (hop : c.op = .wr) (hp : s.phase = .x1) : complete c r s = .next (completeWr s) := by
  simp [complete, hop, hp]

theorem complete_chipinfo_first (hop : c.op = .chipinfo) (hp : s.phase = .x1) :
    complete c r s = .next (continueChipinfo s) := by
  simp [complete, hop, hp]

theorem complete_chipinfo_second (hop : c.op = .chipinfo) (hp : s.phase = .x2) :
    complete c r s = .next (completeChipinfo r s) := by
  simp [complete, hop, hp]

end Rows

/-- Both outcomes are next states, and these differ in `buf` and `hist` only. -/
def AgreeButBufHist (x y : Host.Outcome State Fault Refusal) : Prop :=
  ∃ t u : State, x = .next t ∧ y = .next u ∧ u = { t with buf := u.buf, hist := u.hist }

/-- The completion of a command reads nothing of a reply but its payload (R91). -/
theorem complete_receive_agree {s : State} {c : Command} {f g : Frame} (hpay : f.payload = g.payload)
    (hp : s.phase = .x1 ∨ s.phase = .x2 ∧ c.op = .chipinfo) :
    AgreeButBufHist (complete c f (s.receive f)) (complete c g (s.receive g)) := by
  obtain hp | ⟨hp, hop⟩ := hp
  · cases hop : c.op with
    | rd => exact ⟨_, _, complete_rd hop hp, complete_rd hop hp, by rw [completeRd, completeRd, hpay]; rfl⟩
    | wr => exact ⟨_, _, complete_wr hop hp, complete_wr hop hp, rfl⟩
    | chipinfo => exact ⟨_, _, complete_chipinfo_first hop hp, complete_chipinfo_first hop hp, rfl⟩
  · exact ⟨_, _, complete_chipinfo_second hop hp, complete_chipinfo_second hop hp,
      by rw [completeChipinfo, completeChipinfo, hpay]; rfl⟩

/-- Replies with one payload that the strict check does not tell apart lead to states that differ in `buf` and `hist` only. -/
theorem exec_frame_agree {s : State} {c : Command} {f g : Frame} (hc : s.cmd = some c)
    (hp : s.phase = .x1 ∨ s.phase = .x2 ∧ c.op = .chipinfo) (hpay : f.payload = g.payload)
    (haddr : f.address = g.address ∨ s.par.strictReplyCheck = false) :
    AgreeButBufHist (exec f.instr s) (exec g.instr s) := by
  have ho : s.phase.outstanding = true := outstanding_iff.mpr (hp.imp_right And.left)
  rw [exec_frame_outstanding ho, exec_frame_outstanding ho, onReply_of_cmd (s := s.receive f) hc,
    onReply_of_cmd (s := s.receive g) hc]
  have hm : replyMismatch (s.receive f).par c (s.receive f).phase f =
      replyMismatch (s.receive g).par c (s.receive g).phase g := replyMismatch_congr haddr c s.phase
  rw [hm]
  split
  · exact ⟨_, _, rfl, rfl, rfl⟩
  · exact complete_receive_agree hpay hp

/-- Settles O28: the two replies of R91's comparison agree with the first, which answers the one next state. -/
theorem replyDirectionAndAddressUnused : Obligations.ReplyDirectionAndAddressUnused := by
  intro s c a b p hc hp hab
  obtain ⟨t, u, ht, hu, htu⟩ := exec_frame_agree (f := ⟨.read, a, p⟩) (g := ⟨.write, b, p⟩) hc hp rfl hab
  obtain ⟨t', v, ht', hv, htv⟩ := exec_frame_agree (f := ⟨.read, a, p⟩) (g := ⟨.read, b, p⟩) hc hp rfl hab
  obtain rfl : t = t' := by
    cases ht.symm.trans ht'
    rfl
  exact ⟨t, u, v, ht, hu, hv, htu, htv⟩

end Sys2Proof.Machine
end

section
/-! SUPPORT. The statements of spec/40_codec.md: octet 0 (R112), the length rule (R115) and the two round trips of frames and
octets (R120, R121). -/

namespace Sys2Proof

/-! ### The round trips (R120, R121) -/

/-- Five octets decode to the frame they are, whichever they are (R116). -/
theorem decodeFrame_toList (bs : Bytes5) : decodeFrame bs.toList = .frame bs.frame := rfl

/-- Settles O5: the octets decode to the frame they are, which is the frame that was encoded. -/
theorem decodeOfEncodeIsTheFrame : Obligations.DecodeOfEncodeIsTheFrame := by
  intro f
  rw [decodeFrame_toList, frame_encodeFrame]

/-- Settles O6: the frame is the one the octets are. -/
theorem encodeOfDecodeIsTheOctets : Obligations.EncodeOfDecodeIsTheOctets :=
  fun bs => ⟨bs.frame, decodeFrame_toList bs, encodeFrame_frame bs⟩

/-! ### Octet 0 (R112) -/

/-- Settles O1: the bits of octet 0 are the direction and the address that DECODE reads from it. -/
theorem encodeIsolatesDirectionBit : Obligations.EncodeIsolatesDirectionBit := by
  intro a p
  refine ⟨Machine.encodeFrame_octet0 .write a p, Machine.encodeFrame_octet0 .read a p, ?_, ?_, fun d => ?_⟩
  · exact (octetDir_write _).mp (octetDir_encodeFrame ⟨.write, a, p⟩)
  · exact (octetDir_read _).mp (octetDir_encodeFrame ⟨.read, a, p⟩)
  · rw [← octetAddress_eq_extractLsb', octetAddress_encodeFrame]

/-! ### The length rule (R115) -/

/-- An octet vector fails to decode exactly when it is shorter than five octets. -/
theorem decodeFrame_eq_parseError_iff {bs : List Octet} : decodeFrame bs = .parseError ↔ bs.length < 5 := by
  match bs with
  | [] | [_] | [_, _] | [_, _, _] | [_, _, _, _] => simp [decodeFrame]
  | _ :: _ :: _ :: _ :: _ :: _ => simp [decodeFrame]

/-- Only the first five octets are consulted. -/
theorem decodeFrame_take_five (bs : List Octet) : decodeFrame (bs.take 5) = decodeFrame bs := by
  match bs with
  | [] | [_] | [_, _] | [_, _, _] | [_, _, _, _] => rfl
  | _ :: _ :: _ :: _ :: _ :: _ => rfl

/-- Settles O3: the length alone decides, and the octets after the fifth are not read. -/
theorem decodeLengthRule : Obligations.DecodeLengthRule := by
  intro bs
  refine ⟨decodeFrame_eq_parseError_iff.mpr, fun hlen => ⟨fun herr => ?_, (decodeFrame_take_five bs).symm⟩⟩
  have hshort : bs.length < 5 := decodeFrame_eq_parseError_iff.mp herr
  omega

end Sys2Proof
end

section
/-! SUPPORT. The statements of spec/41_transactions.md: the five invariants (R163), ACCEPT (R141), XDONE and the rows of its case
(R142 to R155), and CONSUME (R156). -/

namespace Sys2Proof.Machine

/-! ### The five invariants (R163) -/

/-- XDONE presents a response exactly where it goes to RESP; in X2 `rsp_valid` stays as it was (R150, R153). -/
theorem xdone_rspValid {K : Type} {o : Answer K} {s t : State.Of K} (h : xdone o s = .next t) :
    (t.phase = .resp ∧ t.rspValid = true) ∨ (t.phase = .x2 ∧ t.rspValid = s.rspValid) := by
  obtain ⟨k, rfl, rfl⟩ | ⟨rx, n, rfl, h⟩ := xdone_next h
  · exact .inl ⟨rfl, rfl⟩
  · obtain ⟨-, rfl⟩ | ⟨r, -, h⟩ := onReceived_next h
    · exact .inl ⟨rfl, rfl⟩
    · obtain ⟨c, -, ⟨-, rfl⟩ | ⟨-, h⟩⟩ := onReply_next h
      · exact .inl ⟨rfl, rfl⟩
      · obtain ⟨-, -, rfl⟩ | ⟨-, -, rfl⟩ | ⟨-, -, rfl⟩ | ⟨-, -, rfl⟩ := complete_next h
        · exact .inl ⟨rfl, rfl⟩
        · exact .inl ⟨rfl, rfl⟩
        · exact .inr ⟨rfl, rfl⟩
        · exact .inl ⟨rfl, rfl⟩

/-- XDONE keeps the invariants: the command stays latched, and `phase`, `rsp_valid` and the history move together. -/
theorem xdone_inv {K : Type} {o : Answer K} {s t : State.Of K} (hp : s.phase.outstanding = true) (hs : s.Inv)
    (h : xdone o s = .next t) : t.Inv := by
  obtain ⟨hvalid, -, -, -, hheld⟩ := hs
  have hbusy : s.phase ≠ .idle := by
    intro hidle
    cases hidle ▸ hp
  obtain ⟨-, hcmd, -, -⟩ := xdone_frame h
  have hlatched : t.cmd.isSome = true := hcmd ▸ hheld hbusy
  obtain ⟨ht, hhist⟩ | ⟨hx1, hop, ht, hhist⟩ := xdone_phases h
  · obtain ⟨-, hv⟩ | ⟨hx2, -⟩ := xdone_rspValid h
    · simp [State.Of.Inv, ht, hv, hhist, hlatched, lastIsIssue, Phase.outstanding]
    · cases ht.symm.trans hx2
  · obtain ⟨hresp, -⟩ | ⟨-, hv⟩ := xdone_rspValid h
    · cases ht.symm.trans hresp
    · rw [← hcmd] at hop
      simp [State.Of.Inv, ht, hv, hvalid, hx1, hhist, hlatched, hop, lastIsIssue, Phase.outstanding]

/-- Each of the four events keeps the five invariants. -/
theorem EventRel.keeps_inv {s t : State} (h : EventRel s t) (hs : s.Inv) : t.Inv := by
  cases h with
  | accept op a d hp =>
    obtain ⟨hvalid, -⟩ := hs
    simp [State.Of.Inv, hvalid, hp, lastIsIssue, Phase.outstanding]
  | xdone o hp _ hx => exact xdone_inv hp hs hx
  | consume hp =>
    obtain ⟨-, -, hissue, -⟩ := hs
    simpa [State.Of.Inv, hp, Phase.outstanding] using hissue
  | reset => simp [State.Of.Inv, lastIsIssue, Phase.outstanding]

/-- Settles O53: the step is one of the four events at the state without its offer, and each keeps the invariants. -/
theorem everyStepKeepsTheFiveInvariants : Obligations.EveryStepKeepsTheFiveInvariants := by
  intro s t hs h
  obtain ⟨rest, hr⟩ := step_eventRel h
  exact hr.keeps_inv hs

/-! ### ACCEPT (R141) -/

/-- Settles O14: a word that is not reserved is a command of its own fields, taken in IDLE and held elsewhere. -/
theorem acceptFollowsItsPseudocode : Obligations.AcceptFollowsItsPseudocode := by
  intro s w
  refine ⟨decodeCommand_of_reserved, fun hw => ?_⟩
  obtain ⟨op, hop⟩ := code_of_ne_reserved hw
  refine ⟨op.command w.addr w.data, op, encodeFrame (firstRequest s.par op w.addr w.data), decodeCommand_of_code hop,
    hop.symm, ?_, fun hp => exec_command_idle hp op w.addr w.data, fun hp t ht => ?_⟩
  · cases op <;> rfl
  · have hpresent : presentCommand op w.addr w.data s = .next t := by cases op <;> exact ht
    obtain ⟨hidle, -⟩ | ⟨-, rfl⟩ := presentCommand_next hpresent
    · exact absurd hidle hp
    · exact ⟨rfl, rfl, rfl, rfl, rfl, rfl, rfl, rfl, rfl⟩

/-! ### XDONE (R142) -/

section Rows

variable {K : Type} {s : State.Of K} {c : Command} {r : Frame} {rx : Bytes5}

/-- A short receive is a parse error, whatever the command (R143). -/
theorem xdone_short {n : Fin 6} (hn : n.val < 5) :
    xdone (.ok rx n) s = .next (((s.log (.done (.ok rx n))).setBuf (some rx)).raise .parse) := by
  have hd : decodeFrame (receivedOctets rx n) = .parseError :=
    decodeFrame_eq_parseError_iff.mpr (by simp [receivedOctets, hn])
  simp [xdone, onReceived, hd]

/-- `ReqAddr` of the outstanding request, by the command and the exchange. -/
theorem reqAddr_eq (p : Params) (c : Command) (ph : Phase) : reqAddr p c ph =
    if c.op = .chipinfo then (if ph = .x1 then p.chipInfoAddr else p.chipInfoData) else c.addr := by
  unfold reqAddr
  cases c.op <;> rfl

/-- The strict check catches a reply exactly when it is on and the address is not the request's (R144). -/
theorem replyMismatch_iff {p : Params} {ph : Phase} :
    replyMismatch p c ph r = true ↔ p.strictReplyCheck = true ∧ r.address ≠ reqAddr p c ph := by
  simp [replyMismatch]

/-- A reply that the strict check catches ends the command, whichever it is. -/
theorem onReply_caught (hc : s.cmd = some c)
    (hcheck : s.par.strictReplyCheck = true ∧ r.address ≠ reqAddr s.par c s.phase) :
    onReply r s = .next (s.raise .unexpectedReply) := by
  rw [onReply_of_cmd hc, if_pos (replyMismatch_iff.mpr hcheck)]

/-- A reply that the strict check lets pass is completed by the command's own row. -/
theorem onReply_passed (hc : s.cmd = some c)
    (hcheck : ¬ (s.par.strictReplyCheck = true ∧ r.address ≠ reqAddr s.par c s.phase)) :
    onReply r s = complete c r s := by
  rw [onReply_of_cmd hc, if_neg (mt replyMismatch_iff.mp hcheck)]

/-- A whole receive that the strict check catches ends the command with `rx` in `buf` (R142). -/
theorem xdone_caught (hc : s.cmd = some c)
    (hcheck : s.par.strictReplyCheck = true ∧ rx.frame.address ≠ reqAddr s.par c s.phase) : xdone (.ok rx 5) s =
      .next (((s.log (.done (.ok rx 5))).setBuf (some rx)).raise .unexpectedReply) :=
  onReply_caught (s := (s.log _).setBuf _) hc hcheck

/-- A whole receive that the strict check lets pass is completed with `rx` in `buf` (R142). -/
theorem xdone_passed (hc : s.cmd = some c)
    (hcheck : ¬ (s.par.strictReplyCheck = true ∧ rx.frame.address ≠ reqAddr s.par c s.phase)) : xdone (.ok rx 5) s =
      complete c rx.frame ((s.log (.done (.ok rx 5))).setBuf (some rx)) :=
  onReply_passed (s := (s.log _).setBuf _) hc hcheck

/-- The strict check lets a reply pass when it is off or the address is the request's. -/
theorem strictCheck_passed {b : Bool} {a req : Address} (h : b = false ∨ a = req) : ¬ (b = true ∧ a ≠ req) := by
  rintro ⟨rfl, hne⟩
  obtain h | h := h
  · cases h
  · exact hne h

/-- The rows of R142's case that R163 lets meet: WR discards the payload, CHIPINFO goes on after exchange 1, and every other
reply is the result. -/
theorem complete_rows (hp : s.phase = .x1 ∨ s.phase = .x2 ∧ c.op = .chipinfo) : complete c r s = .next (
    if c.op = .wr then completeWr s
    else if c.op = .chipinfo ∧ s.phase = .x1 then continueChipinfo s
    else s.respond .ok r.payload none) := by
  obtain hp | ⟨hp, hop⟩ := hp
  · cases hop : c.op with
    | rd => simp [complete_rd hop hp, completeRd]
    | wr => simp [complete_wr hop hp]
    | chipinfo => simp [complete_chipinfo_first hop hp, hp]
  · simp [complete_chipinfo_second hop hp, hop, hp, completeChipinfo]

/-- CHIPINFO's second request follows the record of the first exchange's end, in one event (R153). -/
theorem continueChipinfo_log (d : Record K) (b : Option Bytes5) : continueChipinfo ((s.log d).setBuf b) = { s with
    phase := .x2, buf := some (encodeFrame (secondRequest s.par))
    hist := s.hist ++ [d, .issue (encodeFrame (secondRequest s.par))] } := by
  have hhist : s.hist ++ [d, .issue (encodeFrame (secondRequest s.par))] =
      s.hist ++ [d] ++ [.issue (encodeFrame (secondRequest s.par))] := by simp
  rw [hhist]
  rfl

end Rows

/-- Settles O22: by the outcome, then the number of octets, then the strict check, then the command's own row. -/
theorem xdoneFollowsItsPseudocode : Obligations.XdoneFollowsItsPseudocode := by
  refine ⟨fun o p => outstanding_iff, fun s c o hc hp => ?_⟩
  intro ended req second
  cases o with
  | fail k => rfl
  | ok rx n =>
    by_cases hn : n.val < 5
    · simp only [xdone_short hn, if_pos hn]
      rfl
    · obtain rfl : n = 5 := Fin.ext (Nat.le_antisymm (Nat.le_of_lt_succ n.isLt) (Nat.not_lt.mp hn))
      have haddr : rx.frame.address = rx.b0.extractLsb' 0 7 := octetAddress_eq_extractLsb' rx.b0
      have hreq : reqAddr s.par c s.phase = req := reqAddr_eq s.par c s.phase
      simp only [if_neg hn]
      rw [← haddr, ← hreq]
      by_cases hcheck : s.par.strictReplyCheck = true ∧ rx.frame.address ≠ reqAddr s.par c s.phase
      · rw [xdone_caught hc hcheck, if_pos hcheck]
        rfl
      · rw [xdone_passed hc hcheck, if_neg hcheck, complete_rows (s := (s.log _).setBuf _) hp, continueChipinfo_log]
        rfl

/-! ### The frames that answer CHIPINFO, and the strict check (R144, R153, R155) -/

section Replies

variable {s : State} {c : Command} {f : Frame}

/-- The reply to CHIPINFO's exchange 1 issues exchange 2. -/
theorem exec_frame_chipinfo_first (hp : s.phase = .x1) (hc : s.cmd = some c) (hop : c.op = .chipinfo)
    (ha : s.par.strictReplyCheck = false ∨ f.address = s.par.chipInfoAddr) :
    exec f.instr s = .next (continueChipinfo (s.receive f)) := by
  have hreq : reqAddr s.par c s.phase = s.par.chipInfoAddr := by simp [reqAddr, hop, hp]
  rw [← hreq] at ha
  rw [exec_frame_outstanding (outstanding_iff.mpr (.inl hp))]
  exact (onReply_passed (s := s.receive f) hc (strictCheck_passed ha)).trans (complete_chipinfo_first hop hp)

/-- The reply to CHIPINFO's exchange 2 completes the command. -/
theorem exec_frame_chipinfo_second (hp : s.phase = .x2) (hc : s.cmd = some c) (hop : c.op = .chipinfo)
    (ha : s.par.strictReplyCheck = false ∨ f.address = s.par.chipInfoData) :
    exec f.instr s = .next (completeChipinfo f (s.receive f)) := by
  have hreq : reqAddr s.par c s.phase = s.par.chipInfoData := by simp [reqAddr, hop, hp]
  rw [← hreq] at ha
  rw [exec_frame_outstanding (outstanding_iff.mpr (.inr hp))]
  exact (onReply_passed (s := s.receive f) hc (strictCheck_passed ha)).trans (complete_chipinfo_second hop hp)

/-- A reply that the strict check catches ends the command. -/
theorem exec_frame_caught (hp : s.phase.outstanding = true) (hc : s.cmd = some c)
    (hcheck : s.par.strictReplyCheck = true ∧ f.address ≠ reqAddr s.par c s.phase) :
    exec f.instr s = .next ((s.receive f).raise .unexpectedReply) := by
  rw [exec_frame_outstanding hp]
  exact onReply_caught (s := s.receive f) hc hcheck

end Replies

/-- Settles O25: a reply of either direction reaches CHIPINFO's first row. -/
theorem frameContinuesChipinfo : Obligations.FrameContinuesChipinfo := by
  intro s c a p hp hc hop ha
  have hreply (dir : Dir) := exec_frame_chipinfo_first (f := ⟨dir, a, p⟩) hp hc hop ha
  simp only [State.Of.receive, continueChipinfo_log] at hreply
  rw [← encodeFrame_read s.par.chipInfoData]
  exact ⟨hreply .read, hreply .write⟩

/-- Settles O26: a reply of either direction reaches CHIPINFO's second row. -/
theorem frameCompletesChipinfo : Obligations.FrameCompletesChipinfo := by
  intro s c a p hp hc hop ha
  have hreply (dir : Dir) := exec_frame_chipinfo_second (f := ⟨dir, a, p⟩) hp hc hop ha
  exact ⟨hreply .read, hreply .write⟩

/-- Settles O27: a reply of either direction is caught before the command's own row is looked at. -/
theorem strictCheckCatchesAnotherAddress : Obligations.StrictCheckCatchesAnotherAddress := by
  intro s c a p hp hc hon ha
  rw [← reqAddr_eq] at ha
  have hreply (dir : Dir) := exec_frame_caught (f := ⟨dir, a, p⟩) (outstanding_iff.mpr hp) hc ⟨hon, ha⟩
  exact ⟨hreply .read, hreply .write⟩

/-! ### Steps whose first offer is an answer or a CONSUME -/

section Steps

variable {s : State} {rest : List (Event TKind)}

/-- An admitted answer that is offered first is performed as the XDONE of the outstanding exchange. -/
theorem step_xdone {o : Answer TKind} (hs : s.offers = .xdone o :: rest) (hp : s.phase.outstanding = true)
    (ha : o.admitted s.par = true) : step s = xdone o (s.setOffers rest) := by
  have hx : transportAnswer o (s.setOffers rest) = xdone o (s.setOffers rest) := transportAnswer_outstanding hp ha
  have hstep := stepPerformsTheOldestEnabledOffer s (.xdone o) [] rest hs (by simp) hp
  rw [hstep, ← hx]
  cases hi : (Event.xdone o).instr with
  | none => rfl
  | some i =>
    obtain ⟨rx, rfl, rfl⟩ := instr_xdone hi
    have hexec := exec_frame_instr rx.frame (s.setOffers rest)
    rwa [encodeFrame_frame] at hexec

/-- A CONSUME that is offered first is performed in RESP (R156). -/
theorem step_consume (hs : s.offers = .consume :: rest) (hp : s.phase = .resp) :
    step s = .next (s.setOffers rest).consume :=
  (stepPerformsTheOldestEnabledOffer s .consume [] rest hs (by simp) (enabledIn_consume.mpr hp)).trans (if_pos hp)

/-- A step with no enabled offer is stuck (R226). -/
theorem step_stuck (h : ∀ x ∈ s.offers, x.enabledIn s.phase = false) : step s = .fault (.noEventEnabled s.phase) := by
  rw [step_eq, nextOffer_none.mpr h]

end Steps

/-- Settles O38: the three failures of XDONE come before CHIPINFO's own row, so none of them issues exchange 2. -/
theorem failedFirstExchangeStopsChipinfo : Obligations.FailedFirstExchangeStopsChipinfo := by
  intro s c o rest hp hc hop hs ha
  rw [step_xdone hs (outstanding_iff.mpr (.inl hp)) ha]
  refine ⟨?_, ?_, ?_⟩
  · rintro k rfl
    exact ⟨_, rfl, rfl, rfl, rfl, rfl⟩
  · rintro rx n rfl hn
    exact ⟨_, xdone_short hn, rfl, rfl, rfl⟩
  · rintro rx rfl hon hne
    have hreq : reqAddr s.par c s.phase = s.par.chipInfoAddr := by simp [reqAddr, hop, hp]
    rw [← octetAddress_eq_extractLsb', ← hreq] at hne
    exact ⟨_, xdone_caught (s := s.setOffers rest) hc ⟨hon, hne⟩, rfl, rfl, rfl⟩

/-- Settles O39: CONSUME is enabled in RESP and nowhere else. -/
theorem consumeReturnsTheBlockToIdle : Obligations.ConsumeReturnsTheBlockToIdle := by
  refine ⟨fun s rest hp hs => step_consume hs hp, fun s hp hall => step_stuck fun x hx => ?_⟩
  rw [hall x hx]
  exact Bool.eq_false_iff.mpr (mt enabledIn_consume.mp hp)

end Sys2Proof.Machine
end

section
/-! SUPPORT. The statement of spec/60_exceptions.md sections 1 and 2: what a response writes, and an error as a response (R150,
R185). -/

namespace Sys2Proof.Machine

variable {K : Type}

/-- A response writes the four response registers and the phase, and keeps every other field (R150). -/
theorem respond_eq (s : State.Of K) (st : Status) (v : Payload) (k : Option K) : s.respond st v k =
    { s with rspStatus := some st, rspData := some v, rspKind := k, rspValid := true, phase := .resp } := rfl

/-- An error is the response with its status, data 0 and its information (R14, R185). -/
theorem raise_eq_respond (s : State.Of K) (e : DriverError K) : s.raise e = s.respond e.status 0#32 e.info := rfl

/-- Settles O49: the three errors are instances of the one response that `raise` is. -/
theorem respondAndRaiseWriteTheResponseOnly : Obligations.RespondAndRaiseWriteTheResponseOnly :=
  ⟨respond_eq, fun s k =>
    ⟨raise_eq_respond s (.communication k), raise_eq_respond s .parse, raise_eq_respond s .unexpectedReply⟩⟩

end Sys2Proof.Machine
end

section
/-! SUPPORT. The statements of spec/70_reset_and_hazards.md: no answer is delivered after RESET (R211), and a command that its
caller drops while it waits is lost (R218). For the second, the performed offer does not look at the offers that are left, so
any change of these commutes with it. -/

namespace Sys2Proof.Machine

/-! ### The performed offer -/

/-- What a step does with the offer it selects: its instruction, or the event it is. -/
def performOffer (e : Event TKind) (s : State) : Host.Outcome State Fault Refusal :=
  match e.instr with
  | some i => exec i s
  | none   => performEvent e s

/-- A step performs the selected offer at the state without it. -/
theorem step_of_nextOffer {s : State} {e : Event TKind} {rest : List (Event TKind)}
    (h : nextOffer s.phase s.offers = some (e, rest)) : step s = performOffer e (s.setOffers rest) := by
  rw [step_eq, h]
  rfl

/-- A step with no selected offer is stuck (R226). -/
theorem step_of_nextOffer_none {s : State} (h : nextOffer s.phase s.offers = none) :
    step s = .fault (.noEventEnabled s.phase) :=
  step_stuck (nextOffer_none.mp h)

/-- An answer is performed as `transportAnswer`, with the instruction of a whole frame (R118, R119) or without one. -/
theorem performOffer_xdone (o : Answer TKind) (s : State) : performOffer (.xdone o) s = transportAnswer o s := by
  cases hi : (Event.xdone o).instr with
  | none => simp only [performOffer, hi, performEvent]
  | some i =>
    obtain ⟨rx, rfl, rfl⟩ := instr_xdone hi
    simp only [performOffer, hi, exec_frame_instr, encodeFrame_frame]

theorem performOffer_consume {s : State} (hp : s.phase = .resp) : performOffer .consume s = .next s.consume :=
  if_pos hp

theorem performOffer_reset (s : State) : performOffer .reset s = .next s.rst := rfl

/-! ### After RESET (R211) -/

/-- A RESET that is offered first is performed in every phase (R210). -/
theorem step_reset {s : State} {rest : List (Event TKind)} (hs : s.offers = .reset :: rest) :
    step s = .next (s.setOffers rest).rst :=
  step_of_nextOffer (e := .reset) (by rw [hs]; rfl)

/-- Settles O41: RESET leaves IDLE, in which neither an answer nor a CONSUME is enabled. -/
theorem noAnswerIsDeliveredAfterReset : Obligations.NoAnswerIsDeliveredAfterReset := by
  intro s t rest hs hrest h
  rw [step_reset hs] at h
  cases h
  refine step_stuck fun x hx => ?_
  obtain rfl | ⟨o, rfl⟩ := hrest x hx
  · rfl
  · rfl

/-! ### A change of what stays offered -/

/-- The state with its offers changed by `g`, and everything else as it is. -/
def State.Of.mapOffers {K : Type} (g : List (Event K) → List (Event K)) (s : State.Of K) : State.Of K :=
  s.setOffers (g s.offers)

section MapOffers

variable {K : Type} (g : List (Event K) → List (Event K))

@[simp] theorem State.Of.mapOffers_par (s : State.Of K) : (s.mapOffers g).par = s.par := rfl
@[simp] theorem State.Of.mapOffers_phase (s : State.Of K) : (s.mapOffers g).phase = s.phase := rfl
@[simp] theorem State.Of.mapOffers_cmd (s : State.Of K) : (s.mapOffers g).cmd = s.cmd := rfl
@[simp] theorem State.Of.mapOffers_offers (s : State.Of K) : (s.mapOffers g).offers = g s.offers := rfl

theorem complete_mapOffers (c : Command) (r : Frame) (s : State.Of K) :
    complete c r (s.mapOffers g) = mapNext (State.Of.mapOffers g) (complete c r s) := by
  unfold complete
  rw [State.Of.mapOffers_phase]
  split <;> rfl

theorem onReply_mapOffers (r : Frame) (s : State.Of K) :
    onReply r (s.mapOffers g) = mapNext (State.Of.mapOffers g) (onReply r s) := by
  cases hc : s.cmd with
  | none => simp [onReply, hc]
  | some c =>
    rw [onReply_of_cmd hc, onReply_of_cmd (s := s.mapOffers g) hc, complete_mapOffers, State.Of.mapOffers_par,
      State.Of.mapOffers_phase]
    split
    · rfl
    · rfl

theorem onReceived_mapOffers (rx : Bytes5) (n : Fin 6) (s : State.Of K) :
    onReceived rx n (s.mapOffers g) = mapNext (State.Of.mapOffers g) (onReceived rx n s) := by
  unfold onReceived
  cases decodeFrame (receivedOctets rx n) with
  | parseError => rfl
  | frame r => exact onReply_mapOffers g r s

theorem xdone_mapOffers (o : Answer K) (s : State.Of K) :
    xdone o (s.mapOffers g) = mapNext (State.Of.mapOffers g) (xdone o s) := by
  cases o with
  | fail k => rfl
  | ok rx n => exact onReceived_mapOffers g rx n ((s.log (.done (.ok rx n))).setBuf (some rx))

/-- An answer to an outstanding exchange completes it or is refused, whatever else is offered. -/
theorem transportAnswer_mapOffers (o : Answer K) {s : State.Of K} (hp : s.phase.outstanding = true) :
    transportAnswer o (s.mapOffers g) = mapNext (State.Of.mapOffers g) (transportAnswer o s) := by
  cases ha : o.admitted s.par with
  | true =>
    rw [transportAnswer_outstanding hp ha, transportAnswer_outstanding (s := s.mapOffers g) hp ha]
    exact xdone_mapOffers g o s
  | false =>
    cases o with
    | fail k => cases ha
    | ok rx n => simp [transportAnswer, hp, ha]

end MapOffers

/-- Outside IDLE an enabled offer does the same whatever else is offered, and leaves that as it is. -/
theorem performOffer_mapOffers (g : List (Event TKind) → List (Event TKind)) {e : Event TKind} {s : State}
    (hbusy : s.phase ≠ .idle) (he : e.enabledIn s.phase = true) :
    performOffer e (s.mapOffers g) = mapNext (State.Of.mapOffers g) (performOffer e s) := by
  cases e with
  | accept w => exact absurd (enabledIn_accept.mp he) hbusy
  | xdone o =>
    rw [performOffer_xdone, performOffer_xdone]
    exact transportAnswer_mapOffers g o he
  | consume =>
    have hp : s.phase = .resp := enabledIn_consume.mp he
    rw [performOffer_consume hp, performOffer_consume (s := s.mapOffers g) hp]
    rfl
  | reset => rfl

/-! ### The caller's withdrawal of a command (R218) -/

section Drop

variable {K : Type}

/-- Offers without a command are passed over. -/
theorem dropFirstCommand_append {pre : List (Event K)} (hpre : ∀ v, Event.accept v ∉ pre) (es : List (Event K)) :
    dropFirstCommand (pre ++ es) = pre ++ dropFirstCommand es := by
  induction pre with
  | nil => rfl
  | cons x xs ih =>
    have hxs := ih fun v hv => hpre v (List.mem_cons_of_mem x hv)
    cases x with
    | accept w => exact absurd List.mem_cons_self (hpre w)
    | xdone o => exact congrArg (List.cons (.xdone o)) hxs
    | consume => exact congrArg (List.cons .consume) hxs
    | reset => exact congrArg (List.cons .reset) hxs

/-- The block is not ready for a command exactly outside IDLE (R40). -/
theorem cmdReady_eq_false {s : State.Of K} : s.cmdReady = false ↔ s.phase ≠ .idle := by
  simp [State.Of.cmdReady]

/-- Outside IDLE no command is enabled, so dropping one changes neither the selected offer nor the order of the others. -/
theorem nextOffer_dropFirstCommand {p : Phase} (hp : p ≠ .idle) (es : List (Event K)) :
    nextOffer p (dropFirstCommand es) = (nextOffer p es).map (Prod.map id dropFirstCommand) := by
  have hwait (w : CommandWord) : (Event.accept w : Event K).enabledIn p = false :=
    Bool.eq_false_iff.mpr (mt enabledIn_accept.mp hp)
  induction es with
  | nil => rfl
  | cons e es ih =>
    have hkept (hdrop : ∀ fs, dropFirstCommand (e :: fs) = e :: dropFirstCommand fs) :
        nextOffer p (dropFirstCommand (e :: es)) = (nextOffer p (e :: es)).map (Prod.map id dropFirstCommand) := by
      cases he : e.enabledIn p with
      | true => simp [hdrop, nextOffer, he]
      | false => cases hn : nextOffer p es <;> simp [hdrop, nextOffer, he, ih, hn]
    cases e with
    | accept w => cases hn : nextOffer p es <;> simp [dropFirstCommand, nextOffer, hwait, hn]
    | xdone o => exact hkept fun _ => rfl
    | consume => exact hkept fun _ => rfl
    | reset => exact hkept fun _ => rfl

end Drop

/-- Outside IDLE a step commutes with the loss of the oldest waiting command. -/
theorem step_mapOffers_dropFirstCommand {s : State} (hbusy : s.phase ≠ .idle) :
    step (s.mapOffers dropFirstCommand) = mapNext (State.Of.mapOffers dropFirstCommand) (step s) := by
  have hdrop : nextOffer (s.mapOffers dropFirstCommand).phase (s.mapOffers dropFirstCommand).offers =
      (nextOffer s.phase s.offers).map (Prod.map id dropFirstCommand) := nextOffer_dropFirstCommand hbusy s.offers
  cases hn : nextOffer s.phase s.offers with
  | none =>
    rw [hn] at hdrop
    rw [step_of_nextOffer_none hn, step_of_nextOffer_none hdrop]
    rfl
  | some q =>
    obtain ⟨e, rest⟩ := q
    obtain ⟨-, -, -, -, he, -⟩ := nextOffer_some hn
    rw [hn] at hdrop
    rw [step_of_nextOffer hn, step_of_nextOffer hdrop]
    exact performOffer_mapOffers dropFirstCommand (s := s.setOffers rest) hbusy he

/-- Settles O60: the withdrawal takes the oldest command out of the offers, and no step outside IDLE looks at that command. -/
theorem droppedCommandIsLost : Obligations.DroppedCommandIsLost := by
  refine ⟨State.Of.dropCommand_ready, fun s hs => ?_⟩
  rw [State.Of.dropCommand_busy s hs]
  refine ⟨fun w pre post hoffers hpre => ?_, fun hnone => ?_, ?_⟩
  · rw [hoffers, dropFirstCommand_append hpre]
    rfl
  · have hsame : dropFirstCommand s.offers = s.offers := by
      simpa [dropFirstCommand] using dropFirstCommand_append hnone []
    rw [hsame]
    rfl
  · exact step_mapOffers_dropFirstCommand (cmdReady_eq_false.mp hs)

end Sys2Proof.Machine
end

section
/-! SUPPORT. The statements that cross the chapters of spec/: the table words (R97), the response rules (R26, R151, R181), what
a command and a frame leave alone, the frames that answer RD and WR (R147, R149), the ignored fields (R88), which steps move and
which stop (R226), the whole commands (R147 to R155), and the codes (R22, R181). -/

namespace Sys2Proof

/-! ### Table words (R97) -/

/-- A number of bits on the object's side of the border between frames and command words reads the object back (log 9). -/
theorem tableObject_tableWord (e : Encoded) {nbits : Nat} (h : nbits ≤ 40 ↔ e.bits ≤ 40) :
    tableObject nbits e.tableWord = some e := by
  cases e with
  | command w =>
    have hbits : ¬ nbits ≤ 40 := h.not.mpr (by simp [Encoded.bits])
    rw [tableObject, if_neg hbits, Encoded.tableWord, if_pos w.isLt, BitVec.ofNat_toNat, BitVec.setWidth_eq]
  | wire bs =>
    have hbits : nbits ≤ 40 := h.mpr (Nat.le_refl 40)
    rw [tableObject, if_pos hbits, Encoded.tableWord, if_pos bs.word.isLt, BitVec.ofNat_toNat, BitVec.setWidth_eq,
      ofWord_word]

theorem decodeTableWord_encode (i : Instr) {nbits : Nat} (h : nbits ≤ 40 ↔ (encode i).bits ≤ 40) :
    decodeTableWord nbits (encode i).tableWord = some i := by
  rw [decodeTableWord, tableObject_tableWord _ h]
  simp [decodeOfEncodeIsTheInstruction i, Except.toOption]

/-- Settles O10: rounding up to whole bytes moves neither width over the border between the two objects. -/
theorem tableWordOfEveryInstructionDecodes : Obligations.TableWordOfEveryInstructionDecodes := by
  intro i
  refine ⟨decodeTableWord_encode i Iff.rfl, decodeTableWord_encode i ?_⟩
  cases encode i with
  | command w => simp [Encoded.bits]
  | wire bs => simp [Encoded.bits]

/-- Settles O12: the six words are closed terms, so the decoder is evaluated on each. -/
theorem wordsOfTheSpecDecode : Obligations.WordsOfTheSpecDecode := by
  unfold Obligations.WordsOfTheSpecDecode
  decide

end Sys2Proof

namespace Sys2Proof.Machine

/-! ### The response rules (R26, R151, R181) -/

/-- What a response of this status, data and kind satisfies when `op` is the latched operation: the kind is there exactly with
COMM_ERR, and the data is 0 unless RD or CHIPINFO succeeded. -/
def LawfulResponse {K : Type} (op : Option Op) (st : Status) (d : Payload) (k : Option K) : Prop :=
  (k.isSome = true ↔ st = .commErr) ∧ (st ≠ .ok → d = 0#32) ∧ (op = some .wr → d = 0#32)

theorem lawfulResponse_error {K : Type} (op : Option Op) (e : DriverError K) :
    LawfulResponse op e.status 0#32 e.info := by
  cases e <;> simp [LawfulResponse, DriverError.status, DriverError.info]

theorem lawfulResponse_ok {K : Type} {op : Option Op} {d : Payload} (h : op = some .wr → d = 0#32) :
    LawfulResponse op .ok d (none : Option K) := by
  simpa [LawfulResponse] using h

/-- XDONE presents a lawful response, or goes on to CHIPINFO's second exchange (R142). -/
theorem xdone_presents {K : Type} {o : Answer K} {s t : State.Of K} (h : xdone o s = .next t) :
    (∃ st d k, LawfulResponse (s.cmd.map Command.op) st d k ∧
      ∃ b, t = ((s.log (.done o)).setBuf b).respond st d k) ∨
    ∃ b, t = continueChipinfo ((s.log (.done o)).setBuf b) := by
  obtain ⟨k, rfl, rfl⟩ | ⟨rx, n, rfl, h⟩ := xdone_next h
  · exact .inl ⟨_, _, _, lawfulResponse_error _ (.communication k), none, rfl⟩
  · obtain ⟨-, rfl⟩ | ⟨r, -, h⟩ := onReceived_next h
    · exact .inl ⟨_, _, _, lawfulResponse_error _ .parse, some rx, rfl⟩
    · obtain ⟨c, hc, ⟨-, rfl⟩ | ⟨-, h⟩⟩ := onReply_next h
      · exact .inl ⟨_, _, _, lawfulResponse_error _ .unexpectedReply, some rx, rfl⟩
      · have hcmd : s.cmd = some c := hc
        rw [hcmd]
        obtain ⟨hop, -, rfl⟩ | ⟨-, -, rfl⟩ | ⟨-, -, rfl⟩ | ⟨hop, -, rfl⟩ := complete_next h
        · exact .inl ⟨_, _, _, lawfulResponse_ok (by simp [hop]), some rx, rfl⟩
        · exact .inl ⟨_, _, _, lawfulResponse_ok fun _ => rfl, some rx, rfl⟩
        · exact .inr ⟨some rx, rfl⟩
        · exact .inl ⟨_, _, _, lawfulResponse_ok (by simp [hop]), some rx, rfl⟩

/-- A phase with an exchange outstanding is none of those without one (R35). -/
theorem ne_of_outstanding {p q : Phase} (hp : p.outstanding = true) (hq : q.outstanding = false) : p ≠ q := by
  rintro rfl
  cases hp.symm.trans hq

/-- A state outside RESP meets the response rules when its registers are UNSPEC. -/
theorem responseInv_of_ne_resp {K : Type} {s : State.Of K} (hp : s.phase ≠ .resp)
    (h : s.rspStatus = none ∧ s.rspData = none ∧ s.rspKind = none) : s.ResponseInv := by
  simp [State.Of.ResponseInv, hp, h]

/-- A lawful response for the latched command meets the response rules. -/
theorem responseInv_respond {K : Type} {s : State.Of K} {st : Status} {d : Payload} {k : Option K}
    (h : LawfulResponse (s.cmd.map Command.op) st d k) : (s.respond st d k).ResponseInv := by
  obtain ⟨hkind, herror, hwr⟩ := h
  refine ⟨fun hp => absurd rfl hp, fun _ => ⟨rfl, rfl⟩, fun _ => ?_, fun _ hst => ?_,
    fun _ hop => congrArg some (hwr hop)⟩
  · simpa using hkind
  · exact congrArg some (herror fun hok => hst (congrArg some hok))

/-- Each of the four events keeps the response rules. -/
theorem EventRel.keeps_responseInv {s t : State} (h : EventRel s t) (hs : s.ResponseInv) : t.ResponseInv := by
  obtain ⟨hunspec, -⟩ := hs
  cases h with
  | accept op a d hp => exact responseInv_of_ne_resp (by simp) (hunspec (by simp [hp]))
  | xdone o hp _ hx =>
    obtain ⟨st, d, k, hlawful, b, rfl⟩ | ⟨b, rfl⟩ := xdone_presents hx
    · exact responseInv_respond hlawful
    · exact responseInv_of_ne_resp (by simp [continueChipinfo]) (hunspec (ne_of_outstanding hp rfl))
  | consume hp => exact responseInv_of_ne_resp (by simp) ⟨rfl, rfl, rfl⟩
  | reset => exact responseInv_of_ne_resp (by simp) ⟨rfl, rfl, rfl⟩

/-- Settles O55: the step is one of the four events at the state without its offer, and each keeps the rules. -/
theorem everyStepKeepsTheResponseRules : Obligations.EveryStepKeepsTheResponseRules := by
  intro s t hs h
  obtain ⟨rest, hr⟩ := step_eventRel h
  exact hr.keeps_responseInv hs

/-- Settles O52: at launch every register is UNSPEC and the history empty; in IDLE no answer and no CONSUME is enabled. -/
theorem launchStateIsGood : Obligations.LaunchStateIsGood := by
  have hgood (p : Params) : (State.launch p).Good := by
    refine ⟨?_, ?_, responseInv_of_ne_resp (by simp [State.Of.launch]) ⟨rfl, rfl, rfl⟩⟩
    · simp [State.Of.Inv, State.Of.launch, Phase.outstanding, lastIsIssue]
    · simp [State.Of.ExchangeInv, State.Of.launch, Phase.outstanding, openExchange]
  refine ⟨hgood, hgood _, fun p e he => ?_⟩
  cases e with
  | accept w => exact .inl ⟨w, rfl⟩
  | xdone o => cases he
  | consume => cases he
  | reset => exact .inr rfl

/-! ### The commands in every phase (R141, R218) -/

/-- A command outside IDLE changes nothing in the block and stays with its caller (R40). -/
theorem presentCommand_busy {K : Type} {s : State.Of K} (hp : s.phase ≠ .idle) (op : Op) (a : Address) (d : Payload) :
    presentCommand op a d s = .next (s.hold (.accept (commandWord op a d))) :=
  if_neg hp

/-- Settles O18: each of the three is the presentation of its own word. -/
theorem busyBlockLeavesTheCommandHeld : Obligations.BusyBlockLeavesTheCommandHeld :=
  fun _ a d hp => ⟨presentCommand_busy hp .rd a d, presentCommand_busy hp .wr a d, presentCommand_busy hp .chipinfo a d⟩

/-- Settles O19: a command is taken in IDLE and held elsewhere, and neither writes a response register. -/
theorem commandsLeaveEverythingElseAlone : Obligations.CommandsLeaveEverythingElseAlone := by
  intro s t a d h
  have hpresent : ∃ op, presentCommand op a d s = .next t := by
    obtain h | h | h := h
    · exact ⟨.rd, h⟩
    · exact ⟨.wr, h⟩
    · exact ⟨.chipinfo, h⟩
  obtain ⟨op, hpresent⟩ := hpresent
  obtain ⟨hp, rfl⟩ | ⟨hp, rfl⟩ := presentCommand_next hpresent
  · exact ⟨rfl, rfl, rfl, rfl, rfl, rfl, fun _ => rfl, fun hne => absurd hp hne⟩
  · exact ⟨rfl, rfl, rfl, rfl, rfl, rfl, fun hidle => absurd hidle hp, fun _ => ⟨rfl, rfl, rfl, rfl⟩⟩

/-! ### The frames in every phase (R36, R142) -/

/-- An answer with no exchange outstanding changes nothing in the block and stays offered (log 6). -/
theorem transportAnswer_not_outstanding {K : Type} {s : State.Of K} (hp : s.phase.outstanding = false) (o : Answer K) :
    transportAnswer o s = .next (s.hold (.xdone o)) := by
  simp [transportAnswer, hp]

/-- Settles O30: neither IDLE nor RESP has an exchange outstanding. -/
theorem frameWithoutExchangeChangesNothing : Obligations.FrameWithoutExchangeChangesNothing := by
  intro s a p hp
  have ho : s.phase.outstanding = false := by
    obtain hp | hp := hp
    · rw [hp]
      rfl
    · rw [hp]
      rfl
  exact ⟨transportAnswer_not_outstanding ho _, transportAnswer_not_outstanding ho _⟩

/-- XDONE writes the response registers on the way into RESP only. -/
theorem xdone_keeps_response {K : Type} {o : Answer K} {s t : State.Of K} (h : xdone o s = .next t) (ht : t.phase ≠ .resp) :
    t.rspValid = s.rspValid ∧ t.rspStatus = s.rspStatus ∧ t.rspData = s.rspData ∧ t.rspKind = s.rspKind := by
  obtain ⟨st, d, k, -, b, rfl⟩ | ⟨b, rfl⟩ := xdone_presents h
  · exact absurd rfl ht
  · exact ⟨rfl, rfl, rfl, rfl⟩

/-- Settles O31: a frame is the XDONE of the outstanding exchange, or it waits. -/
theorem framesLeaveEverythingElseAlone : Obligations.FramesLeaveEverythingElseAlone := by
  intro s t a p h
  have hanswer : ∃ o, transportAnswer o s = .next t := by
    obtain h | h := h
    · exact ⟨_, h⟩
    · exact ⟨_, h⟩
  obtain ⟨o, hanswer⟩ := hanswer
  obtain ⟨-, -, hx⟩ | ⟨hp, rfl⟩ := transportAnswer_next hanswer
  · obtain ⟨hpar, hcmd, hoffers, htaken⟩ := xdone_frame hx
    exact ⟨hpar, hcmd, htaken, xdone_hist hx, fun _ => hoffers, xdone_keeps_response hx⟩
  · refine ⟨rfl, rfl, rfl, ⟨[], (List.append_nil _).symm⟩, fun hout => ?_, fun _ => ⟨rfl, rfl, rfl, rfl⟩⟩
    cases hp.symm.trans (outstanding_iff.mpr hout)

/-! ### The frames that answer a command (R147, R149) -/

section Replies

variable {s : State} {c : Command} {f : Frame}

/-- RD and WR send the command's own address (R90). -/
theorem reqAddr_of_ne_chipinfo (hop : c.op ≠ .chipinfo) (p : Params) (ph : Phase) : reqAddr p c ph = c.addr := by
  rw [reqAddr_eq, if_neg hop]

/-- A reply to RD or WR that the strict check lets pass is completed by the command's own row (R142, R144). -/
theorem exec_frame_passed (hp : s.phase = .x1) (hc : s.cmd = some c) (hop : c.op ≠ .chipinfo)
    (ha : s.par.strictReplyCheck = false ∨ f.address = c.addr) : exec f.instr s = complete c f (s.receive f) := by
  rw [← reqAddr_of_ne_chipinfo hop s.par s.phase] at ha
  rw [exec_frame_outstanding (outstanding_iff.mpr (.inl hp))]
  exact onReply_passed (s := s.receive f) hc (strictCheck_passed ha)

/-- The reply to RD is its result (R147). -/
theorem exec_frame_rd (hp : s.phase = .x1) (hc : s.cmd = some c) (hop : c.op = .rd)
    (ha : s.par.strictReplyCheck = false ∨ f.address = c.addr) :
    exec f.instr s = .next (completeRd f (s.receive f)) :=
  (exec_frame_passed hp hc (by simp [hop]) ha).trans (complete_rd hop hp)

/-- The reply to WR completes it (R149). -/
theorem exec_frame_wr (hp : s.phase = .x1) (hc : s.cmd = some c) (hop : c.op = .wr)
    (ha : s.par.strictReplyCheck = false ∨ f.address = c.addr) :
    exec f.instr s = .next (completeWr (s.receive f)) :=
  (exec_frame_passed hp hc (by simp [hop]) ha).trans (complete_wr hop hp)

end Replies

/-- Settles O23: a reply of either direction reaches RD's row. -/
theorem frameCompletesRd : Obligations.FrameCompletesRd := by
  intro s c a p hp hc hop ha
  have hreply (dir : Dir) := exec_frame_rd (f := ⟨dir, a, p⟩) hp hc hop ha
  exact ⟨hreply .read, hreply .write⟩

/-- Settles O24: a reply of either direction reaches WR's row. -/
theorem frameCompletesWr : Obligations.FrameCompletesWr := by
  intro s c a p hp hc hop ha
  have hreply (dir : Dir) := exec_frame_wr (f := ⟨dir, a, p⟩) hp hc hop ha
  exact ⟨hreply .read, hreply .write⟩

/-- Settles O29: the strict check reads the address, which the two replies share, and WR's row does not read the reply. -/
theorem wrResponseIgnoresReplyPayload : Obligations.WrResponseIgnoresReplyPayload := by
  intro s c a p q hp hc hop
  by_cases ha : s.par.strictReplyCheck = true ∧ a ≠ reqAddr s.par c s.phase
  · have hreply (dir : Dir) (v : Payload) :=
      exec_frame_caught (f := ⟨dir, a, v⟩) (outstanding_iff.mpr (.inl hp)) hc ha
    exact ⟨_, _, hreply .read p, hreply .write q, rfl, fun hoff => absurd (hoff ▸ ha.left) (by decide)⟩
  · have hpass : s.par.strictReplyCheck = false ∨ a = c.addr := by
      rwa [reqAddr_of_ne_chipinfo (by simp [hop]), not_and_or, Bool.not_eq_true, not_not] at ha
    have hreply (dir : Dir) (v : Payload) := exec_frame_wr (f := ⟨dir, a, v⟩) hp hc hop hpass
    exact ⟨_, _, hreply .read p, hreply .write q, rfl, fun _ => rfl⟩

/-! ### The ignored fields (R88) -/

/-- The completion of a command latches nothing and reads its operation only. -/
theorem complete_setCmd {K : Type} {s : State.Of K} {c c' : Command} (r : Frame) (hop : c'.op = c.op) :
    complete c' r (s.setCmd (some c')) = mapNext (State.Of.setCmd (some c')) (complete c r s) := by
  unfold complete
  rw [hop, State.Of.setCmd_phase]
  split <;> rfl

/-- Replies to commands with one operation and one request address lead to states that differ in `cmd` only. -/
theorem exec_frame_setCmd {s : State} {c c' : Command} {f : Frame} (hc : s.cmd = some c)
    (hp : s.phase = .x1 ∨ s.phase = .x2 ∧ c.op = .chipinfo) (hop : c'.op = c.op)
    (hreq : reqAddr s.par c' s.phase = reqAddr s.par c s.phase) :
    ∃ t, exec f.instr s = .next t ∧ exec f.instr (s.setCmd (some c')) = .next (t.setCmd (some c')) := by
  have ho : s.phase.outstanding = true := outstanding_iff.mpr (hp.imp_right And.left)
  by_cases hcheck : s.par.strictReplyCheck = true ∧ f.address ≠ reqAddr s.par c s.phase
  · exact ⟨_, exec_frame_caught ho hc hcheck, exec_frame_caught (s := s.setCmd (some c')) ho rfl (hreq ▸ hcheck)⟩
  · have hcheck' : ¬ (s.par.strictReplyCheck = true ∧ f.address ≠ reqAddr s.par c' s.phase) := hreq ▸ hcheck
    have hrow := complete_rows (s := s.receive f) (r := f) hp
    refine ⟨_, (exec_frame_outstanding ho f).trans ((onReply_passed (s := s.receive f) hc hcheck).trans hrow), ?_⟩
    rw [exec_frame_outstanding (s := s.setCmd (some c')) ho]
    refine (onReply_passed (s := (s.setCmd (some c')).receive f) rfl hcheck').trans ?_
    exact (complete_setCmd (s := s.receive f) f hop).trans (congrArg (mapNext _) hrow)

/-- Settles O21: ACCEPT makes the request of the other fields, and a reply is checked against that request's address. -/
theorem ignoredFieldsReachCmdOnly : Obligations.IgnoredFieldsReachCmdOnly := by
  refine ⟨fun s a a' d d' hp => ?_, ?_⟩
  · exact ⟨_, _, _, _, exec_command_idle hp .rd a d, exec_command_idle hp .rd a d', rfl,
      exec_command_idle hp .chipinfo a d, exec_command_idle hp .chipinfo a' d, rfl⟩
  · rintro s _ c b p a d hc ⟨c', hc', rfl⟩ hp i hi
    have hframe : ∃ f : Frame, i = f.instr := by
      obtain rfl | rfl := hi
      · exact ⟨⟨.read, b, p⟩, rfl⟩
      · exact ⟨⟨.write, b, p⟩, rfl⟩
    obtain ⟨f, rfl⟩ := hframe
    have hsame : c'.op = c.op ∧ reqAddr s.par c' s.phase = reqAddr s.par c s.phase := by
      obtain ⟨-, rfl⟩ | ⟨hop, rfl⟩ := hc'
      · exact ⟨rfl, rfl⟩
      · exact ⟨rfl, by simp [reqAddr, hop]⟩
    obtain ⟨t, hs, ht⟩ := exec_frame_setCmd (f := f) hc hp hsame.left hsame.right
    exact ⟨t, _, hs, ht, rfl⟩

/-! ### Which step an offer makes (R36) -/

/-- A command word is performed as the presentation of its operation and fields (R88). -/
theorem performOffer_accept {w : CommandWord} {op : Op} (hw : w.op = op.code) (s : State) :
    performOffer (.accept w) s = presentCommand op w.addr w.data s := by
  have hi : (Event.accept w : Event TKind).instr = some (op.command w.addr w.data) := by
    simp [Event.instr, decodeCommand_of_code hw, Except.toOption]
  rw [performOffer, hi]
  cases op <;> rfl

/-- A reserved word is refused (R89). -/
theorem performOffer_reserved {w : CommandWord} (hw : w.op = 0b11#2) (s : State) :
    performOffer (.accept w) s = .refused (.reservedCommand w) := by
  have hi : (Event.accept w : Event TKind).instr = none := by
    simp [Event.instr, decodeCommand_of_reserved hw, Except.toOption]
  rw [performOffer, hi]
  rfl

/-- An outcome that is not admitted is a short receive, and is refused (R61, log 10). -/
theorem transportAnswer_not_admitted {K : Type} {o : Answer K} {s : State.Of K} (hp : s.phase.outstanding = true)
    (ha : o.admitted s.par = false) : ∃ rx n, o = .ok rx n ∧ n.val < 5 ∧ s.par.rxShortAdmitted = false ∧
      transportAnswer o s = .refused (.shortNotAdmitted n) := by
  cases o with
  | fail k => cases ha
  | ok rx n =>
    obtain ⟨hn, hshort⟩ : n.val ≠ 5 ∧ s.par.rxShortAdmitted = false := by simpa [Answer.admitted] using ha
    refine ⟨rx, n, rfl, by omega, hshort, ?_⟩
    simp [transportAnswer, hp, ha]

section Steps

variable {s : State} {e : Event TKind} {pre rest : List (Event TKind)}

/-- A step performs the enabled offer that stands behind none that is enabled. -/
theorem step_append (hs : s.offers = pre ++ e :: rest) (hpre : ∀ x ∈ pre, x.enabledIn s.phase = false)
    (he : e.enabledIn s.phase = true) : step s = performOffer e (s.setOffers (pre ++ rest)) :=
  step_of_nextOffer (hs ▸ nextOffer_append hpre he)

/-- A step performs the first offer where it is enabled. -/
theorem step_first (hs : s.offers = e :: rest) (he : e.enabledIn s.phase = true) :
    step s = performOffer e (s.setOffers rest) :=
  step_append (pre := []) hs (by simp) he

/-- A command word that is offered first to an idle block is taken (R141). -/
theorem step_accept {op : Op} {a : Address} {d : Payload} (hs : s.offers = .accept (commandWord op a d) :: rest)
    (hp : s.phase = .idle) : step s = .next ((s.setOffers rest).accept op a d) := by
  rw [step_first hs (enabledIn_accept.mpr hp), performOffer_accept (commandWord_op op a d), commandWord_addr,
    commandWord_data]
  exact presentCommand_idle (s := s.setOffers rest) hp op a d

end Steps

/-- Settles O32: the instruction that the offered event carries is the one its word or its octets decode to. -/
theorem stepRunsTheDecodedInstruction : Obligations.StepRunsTheDecodedInstruction := by
  refine ⟨fun s w rest i hp hs hi => ?_, fun s bs rest i hp hs hi => ?_⟩
  · have hinstr : (Event.accept w : Event TKind).instr = some i := congrArg Except.toOption hi
    rw [step_first hs (enabledIn_accept.mpr hp), performOffer, hinstr]
    rfl
  · obtain rfl : bs.frame.instr = i := Except.ok.inj hi
    rw [step_first hs (outstanding_iff.mpr hp)]
    rfl

/-- Settles O35: a reserved word in IDLE is selected, and performed as its refusal. -/
theorem reservedWordIsRefused : Obligations.ReservedWordIsRefused := by
  intro s w rest hp hs hw
  rw [step_first hs (enabledIn_accept.mpr hp)]
  exact performOffer_reserved hw _

/-- Settles O36: Fail is always admitted, and XDONE looks at nothing else. -/
theorem transportFailureEndsTheCommand : Obligations.TransportFailureEndsTheCommand := by
  intro s k rest hp hs
  exact step_xdone hs (outstanding_iff.mpr hp) rfl

/-- Settles O37: a short receive is a parse error where it is admitted, and refused where it is not. -/
theorem shortReceiveEndsTheCommand : Obligations.ShortReceiveEndsTheCommand := by
  intro s rx n rest hp hn hs
  have ho : s.phase.outstanding = true := outstanding_iff.mpr hp
  refine ⟨fun hadm => ?_, fun hnot => ?_⟩
  · rw [step_xdone hs ho (by simp [Answer.admitted, hadm])]
    exact xdone_short hn
  · have ha : (Answer.ok rx n : Answer TKind).admitted s.par = false := by
      simp [Answer.admitted, hnot, Nat.ne_of_lt hn]
    rw [step_first hs ho, performOffer_xdone]
    obtain ⟨_, _, hok, -, -, hrefused⟩ := transportAnswer_not_admitted (s := s.setOffers rest) ho ha
    cases hok
    exact hrefused

/-- Settles O40: RESET is enabled in every phase. -/
theorem resetIsAlwaysEnabledAndClears : Obligations.ResetIsAlwaysEnabledAndClears :=
  fun _ _ _ hs hpre => step_append hs hpre enabledIn_reset

/-! ### Where a step is stuck (R226) -/

/-- The faults of the block itself, which R163 rules out: `cmd` is UNSPEC, or the command has no row in its phase. -/
def IsBlockFault (r : Fault) : Prop := r = .readUnspec .cmd ∨ ∃ op p, r = .noCompletionRow op p

theorem onReply_fault {K : Type} {f : Frame} {s : State.Of K} {r : Fault} (h : onReply f s = .fault r) : IsBlockFault r := by
  cases hc : s.cmd with
  | none =>
    rw [onReply, hc] at h
    cases h
    exact .inl rfl
  | some c =>
    rw [onReply_of_cmd hc] at h
    split at h
    · cases h
    · unfold complete at h
      split at h <;> cases h
      exact .inr ⟨_, _, rfl⟩

theorem xdone_fault {K : Type} {o : Answer K} {s : State.Of K} {r : Fault} (h : xdone o s = .fault r) : IsBlockFault r := by
  cases o with
  | fail k => cases h
  | ok rx n =>
    rw [xdone, onReceived] at h
    split at h
    · cases h
    · exact onReply_fault h

theorem transportAnswer_fault {K : Type} {o : Answer K} {s : State.Of K} {r : Fault} (h : transportAnswer o s = .fault r) :
    IsBlockFault r := by
  cases hp : s.phase.outstanding with
  | false =>
    rw [transportAnswer_not_outstanding hp] at h
    cases h
  | true =>
    cases ha : o.admitted s.par with
    | true => exact xdone_fault (transportAnswer_outstanding hp ha ▸ h)
    | false =>
      obtain ⟨rx, n, -, -, -, hrefused⟩ := transportAnswer_not_admitted hp ha
      cases hrefused.symm.trans h

/-- An enabled offer that faults is an answer, and the fault is the block's own. -/
theorem performOffer_fault {e : Event TKind} {s : State} {r : Fault} (he : e.enabledIn s.phase = true)
    (h : performOffer e s = .fault r) : IsBlockFault r := by
  cases e with
  | accept w =>
    by_cases hw : w.op = 0b11#2
    · rw [performOffer_reserved hw] at h
      cases h
    · obtain ⟨op, hop⟩ := code_of_ne_reserved hw
      rw [performOffer_accept hop, presentCommand_idle (enabledIn_accept.mp he)] at h
      cases h
  | xdone o =>
    rw [performOffer_xdone] at h
    exact transportAnswer_fault h
  | consume =>
    rw [performOffer_consume (enabledIn_consume.mp he)] at h
    cases h
  | reset => cases h

/-- Settles O42: a performed offer has no fault but the block's own, so the fault is of a step that performs none. -/
theorem stuckExactlyWhenNothingIsEnabled : Obligations.StuckExactlyWhenNothingIsEnabled := by
  intro s p
  constructor
  · intro h
    cases hn : nextOffer s.phase s.offers with
    | none =>
      rw [step_of_nextOffer_none hn] at h
      cases h
      exact ⟨rfl, nextOffer_none.mp hn⟩
    | some q =>
      obtain ⟨e, rest⟩ := q
      obtain ⟨-, -, -, -, he, -⟩ := nextOffer_some hn
      rw [step_of_nextOffer hn] at h
      obtain hr | ⟨op, ph, hr⟩ := performOffer_fault (s := s.setOffers rest) he h
      · cases hr
      · cases hr
  · rintro ⟨rfl, hall⟩
    exact step_stuck hall

/-! ### Good states move on (R163, R226) -/

/-- In a good state an outstanding exchange belongs to a command that has a row for it. -/
theorem State.Of.Inv.outstanding_cmd {K : Type} {s : State.Of K} (hs : s.Inv) (hp : s.phase.outstanding = true) :
    ∃ c, s.cmd = some c ∧ (s.phase = .x1 ∨ s.phase = .x2 ∧ c.op = .chipinfo) := by
  obtain ⟨-, hchip, -, -, hheld⟩ := hs
  obtain ⟨c, hc⟩ := Option.isSome_iff_exists.mp (hheld (ne_of_outstanding hp rfl))
  refine ⟨c, hc, (outstanding_iff.mp hp).imp_right fun hx2 => ⟨hx2, ?_⟩⟩
  simpa [hc] using hchip hx2

/-- In a good state XDONE has a next state, whatever the outcome. -/
theorem State.Of.Inv.xdone_isNext {s : State} (hs : s.Inv) (hp : s.phase.outstanding = true) (o : Answer TKind) :
    ∃ t, xdone o s = .next t := by
  obtain ⟨c, hc, hrow⟩ := hs.outstanding_cmd hp
  exact ⟨_, xdoneFollowsItsPseudocode.right s c o hc hrow⟩

/-- Settles O45: the answer is performed as XDONE, which ends the command or goes from X1 to X2. -/
theorem answeringTransportMovesTheCommandOn : Obligations.AnsweringTransportMovesTheCommandOn := by
  intro s pre post o hinv hp hs hpre ha
  have ho : s.phase.outstanding = true := outstanding_iff.mpr hp
  obtain ⟨t, hx⟩ := State.Of.Inv.xdone_isNext (s := s.setOffers (pre ++ post)) hinv ho o
  obtain ⟨-, -, hoffers, -⟩ := xdone_frame hx
  have hstep : step s = .next t := by
    rw [step_append hs hpre ho, performOffer_xdone,
      transportAnswer_outstanding (s := s.setOffers (pre ++ post)) ho ha, hx]
  refine ⟨t, hstep, hoffers, ?_⟩
  obtain ⟨ht, -⟩ | ⟨hx1, -, ht, -⟩ := xdone_phases hx
  · exact .inl ht
  · exact .inr ⟨hx1, ht⟩

/-- Settles O56: by the selected offer. Only a reserved word and an outcome that is not admitted are refused. -/
theorem goodStatesStopForOutsideReasonsOnly : Obligations.GoodStatesStopForOutsideReasonsOnly := by
  intro s hinv
  cases hn : nextOffer s.phase s.offers with
  | none => exact .inr (.inl (step_of_nextOffer_none hn))
  | some q =>
    obtain ⟨e, rest⟩ := q
    obtain ⟨pre, post, hs, -, he, -⟩ := nextOffer_some hn
    have hmem : e ∈ s.offers := by simp [hs]
    rw [step_of_nextOffer hn]
    cases e with
    | accept w =>
      by_cases hw : w.op = 0b11#2
      · refine .inr (.inr (.inl ⟨w, hmem, ?_, performOffer_reserved hw _⟩))
        simpa [CommandWord.wellFormed, CommandWord.op] using hw
      · obtain ⟨op, hop⟩ := code_of_ne_reserved hw
        rw [performOffer_accept hop, presentCommand_idle (s := s.setOffers rest) (enabledIn_accept.mp he)]
        exact .inl ⟨_, rfl⟩
    | xdone o =>
      rw [performOffer_xdone]
      cases ha : o.admitted s.par with
      | true =>
        rw [transportAnswer_outstanding (s := s.setOffers rest) he ha]
        exact .inl (State.Of.Inv.xdone_isNext (s := s.setOffers rest) hinv he o)
      | false =>
        obtain ⟨rx, n, rfl, hshort, hnot, hrefused⟩ := transportAnswer_not_admitted (s := s.setOffers rest) he ha
        exact .inr (.inr (.inr ⟨rx, n, hmem, hshort, hnot, hrefused⟩))
    | consume => exact .inl ⟨_, performOffer_consume (enabledIn_consume.mp he)⟩
    | reset => exact .inl ⟨_, performOffer_reset _⟩

/-! ### Whole commands (R147 to R155) -/

/-- A run goes on from the next state of its first step. -/
theorem run_succ_of_step {s t : State} (h : step s = .next t) (k : Nat) :
    Host.Core.run Sys2Proof.core (k + 1) s = Host.Core.run Sys2Proof.core k t := by
  have hcore : Sys2Proof.core.step s = .next t := h
  simp only [Host.Core.run, hcore]

/-- The idle block after a command that started at `s`: `rest` is still offered, `rs` was added to the history, and the caller
took OK with `v`. -/
def State.Of.afterCommand {K : Type} (rest : List (Event K)) (rs : List (Record K)) (v : Payload) (s : State.Of K) :
    State.Of K :=
  { s.clear with
    offers := rest
    hist := s.hist ++ rs
    taken := s.taken ++ [{ status := some .ok, data := some v, kind := none }] }

section AfterCommand

variable {K : Type} {s : State.Of K} {es rest : List (Event K)} {rs : List (Record K)} {v : Payload}

theorem afterCommand_accept (op : Op) (a : Address) (d : Payload) :
    ((s.setOffers es).accept op a d).afterCommand rest rs v =
      s.afterCommand rest (.issue (encodeFrame (firstRequest s.par op a d)) :: rs) v := by
  simp only [State.Of.afterCommand, State.Of.accept_hist, State.Of.setOffers_hist, List.append_assoc]
  rfl

theorem afterCommand_continueChipinfo (r : Record K) (b : Option Bytes5) :
    (continueChipinfo (((s.setOffers es).log r).setBuf b)).afterCommand rest rs v =
      s.afterCommand rest (r :: .issue (encodeFrame (secondRequest s.par)) :: rs) v := by
  simp only [continueChipinfo_log, State.Of.afterCommand, State.Of.setOffers_hist, List.append_assoc]
  rfl

/-- In IDLE the five invariants leave nothing to clear: a command leads back to the state it started from, but for the offers,
the history and the caller's record. -/
theorem afterCommand_idle (hs : s.Inv) (hp : s.phase = .idle) : s.afterCommand rest rs v = { s with
    offers := rest
    hist := s.hist ++ rs
    taken := s.taken ++ [{ status := some .ok, data := some v, kind := none }] } := by
  obtain ⟨hvalid, -, -, hunspec, -⟩ := hs
  obtain ⟨hcmd, hbuf, hstatus, hdata, hkind⟩ := hunspec hp
  have hv : s.rspValid = false := by simpa [hp] using hvalid
  simp [State.Of.afterCommand, hp, hcmd, hbuf, hstatus, hdata, hkind, hv]

end AfterCommand

section Runs

variable {s : State} {rest : List (Event TKind)} {rx : Bytes5} {v : Payload}

/-- The last two events of a command: a reply whose row answers OK with `v`, and the CONSUME by which the caller takes it. -/
theorem run_last_exchange {c : Command} (hs : s.offers = .xdone (.ok rx 5) :: .consume :: rest)
    (hp : s.phase.outstanding = true) (hc : s.cmd = some c) (hoff : s.par.strictReplyCheck = false)
    (hrow : ∀ u : State, u.phase = s.phase → complete c rx.frame u = .next (u.respond .ok v none)) :
    Host.Core.run Sys2Proof.core 2 s = .next (s.afterCommand rest [.done (.ok rx 5)] v) := by
  have hreply := xdone_passed (s := s.setOffers (.consume :: rest)) (rx := rx) hc (strictCheck_passed (.inl hoff))
  have hend := (step_xdone hs hp rfl).trans (hreply.trans (hrow _ rfl))
  rw [run_succ_of_step hend, run_succ_of_step (step_consume rfl rfl)]
  rfl

/-- The reply to CHIPINFO's exchange 1, offered first, issues exchange 2 (R153). -/
theorem step_chipinfo_first {c : Command} (hs : s.offers = .xdone (.ok rx 5) :: rest) (hp : s.phase = .x1)
    (hc : s.cmd = some c) (hop : c.op = .chipinfo) (hoff : s.par.strictReplyCheck = false) :
    step s = .next (continueChipinfo (((s.setOffers rest).log (.done (.ok rx 5))).setBuf (some rx))) := by
  rw [step_xdone hs (outstanding_iff.mpr (.inl hp)) rfl,
    xdone_passed (s := s.setOffers rest) hc (strictCheck_passed (.inl hoff))]
  exact complete_chipinfo_first hop hp

/-- The three events of a command whose first reply is answered with OK and `v`. -/
theorem run_single_exchange {op : Op} {a : Address} {d : Payload} (hinv : s.Inv) (hp : s.phase = .idle)
    (hoff : s.par.strictReplyCheck = false)
    (hs : s.offers = .accept (commandWord op a d) :: .xdone (.ok rx 5) :: .consume :: rest)
    (hrow : ∀ u : State, u.phase = .x1 → complete ⟨op, a, d⟩ rx.frame u = .next (u.respond .ok v none)) :
    Host.Core.run Sys2Proof.core 3 s = .next { s with
      offers := rest
      hist := s.hist ++ [.issue (encodeFrame (firstRequest s.par op a d)), .done (.ok rx 5)]
      taken := s.taken ++ [{ status := some .ok, data := some v, kind := none }] } := by
  have hlast := run_last_exchange (s := (s.setOffers (.xdone (.ok rx 5) :: .consume :: rest)).accept op a d)
    rfl rfl rfl hoff hrow
  rw [run_succ_of_step (step_accept hs hp), hlast, afterCommand_accept, afterCommand_idle hinv hp]

end Runs

/-- Settles O46: RD's row answers the reply's payload. -/
theorem wholeReadReturnsTheReplyPayload : Obligations.WholeReadReturnsTheReplyPayload := by
  intro s a d rx rest hinv hp hoff hs
  exact run_single_exchange (op := .rd) hinv hp hoff hs fun _ hx1 => complete_rd rfl hx1

/-- Settles O47: WR's row answers 0. -/
theorem wholeWriteReturnsOk : Obligations.WholeWriteReturnsOk := by
  intro s a d rx rest hinv hp hoff hs
  exact run_single_exchange (op := .wr) hinv hp hoff hs fun _ hx1 => complete_wr rfl hx1

/-- Settles O48: CHIPINFO's first row goes on to the exchange whose row answers the second reply's payload. -/
theorem wholeChipinfoReturnsTheSecondPayload : Obligations.WholeChipinfoReturnsTheSecondPayload := by
  intro s a d rx1 rx2 rest hinv hp hoff hs
  have hfirst := step_chipinfo_first
    (s := (s.setOffers (.xdone (.ok rx1 5) :: .xdone (.ok rx2 5) :: .consume :: rest)).accept .chipinfo a d)
    rfl rfl rfl rfl hoff
  rw [run_succ_of_step (step_accept (op := .chipinfo) hs hp), run_succ_of_step hfirst]
  refine Eq.trans (run_last_exchange rfl rfl rfl hoff fun _ hx2 => complete_chipinfo_second rfl hx2) ?_
  rw [afterCommand_continueChipinfo, afterCommand_accept, afterCommand_idle hinv hp]
  rfl

/-! ### The first step after reset (log 8) -/

/-- Placed in the reset state, a command is the one offer of an idle block. -/
theorem withFetchWord_command (op : Op) (a : Address) (d : Payload) :
    State.reset.withFetchWord (encode (op.command a d)).bits (encode (op.command a d)).tableWord =
      State.reset.hold (.accept (commandWord op a d)) := by
  rw [State.withFetchWord, tableObject_tableWord _ Iff.rfl, encode_command]
  rfl

/-- Placed in the reset state, a frame is the one offer to a read of the frame's own address. -/
theorem withFetchWord_frame (f : Frame) :
    State.reset.withFetchWord (encode f.instr).bits (encode f.instr).tableWord =
      (State.reset.accept .rd f.address 0#32).hold (.xdone (.ok (encodeFrame f) 5)) := by
  have haddr : (encodeFrame f).frame.address = f.address := by rw [frame_encodeFrame]
  rw [State.withFetchWord, tableObject_tableWord _ Iff.rfl, encode_frame_instr, ← haddr]
  rfl

/-- The placed command is taken, and leaves one record and no offer. -/
theorem step_withFetchWord_command (op : Op) (a : Address) (d : Payload) :
    let s : State := State.reset.withFetchWord (encode (op.command a d)).bits (encode (op.command a d)).tableWord
    step s = exec (op.command a d) { s with offers := [] } ∧
      ∃ t : State, step s = .next t ∧ t.offers = [] ∧ t.phase = .x1 ∧ t.hist.length = 1 := by
  have hdecode := encode_command op a d ▸ decode_encode_command op a d
  rw [withFetchWord_command]
  exact ⟨stepRunsTheDecodedInstruction.left _ _ [] _ rfl rfl hdecode, _, step_accept rfl rfl, rfl, rfl, rfl⟩

/-- The placed frame completes the read, and leaves two records and no offer. -/
theorem step_withFetchWord_frame (f : Frame) :
    let s : State := State.reset.withFetchWord (encode f.instr).bits (encode f.instr).tableWord
    step s = exec f.instr { s with offers := [] } ∧
      ∃ t : State, step s = .next t ∧ t.offers = [] ∧ t.phase = .resp ∧ t.hist.length = 2 := by
  have hdecode := encode_frame_instr f ▸ decode_encode_frame f
  rw [withFetchWord_frame]
  have hstep := stepRunsTheDecodedInstruction.right ((State.reset.accept .rd f.address 0#32).hold _) _ [] _
    (.inl rfl) rfl hdecode
  exact ⟨hstep, _, hstep.trans (exec_frame_rd rfl rfl rfl (.inr rfl)), rfl, rfl, rfl⟩

/-- Settles O57: the next step runs what the placed word decodes to, which is a command in IDLE or a reply to RD. -/
theorem everyTableWordRunsFirstAfterReset : Obligations.EveryTableWordRunsFirstAfterReset := by
  intro i
  cases i with
  | rd a d => exact step_withFetchWord_command .rd a d
  | wr a d => exact step_withFetchWord_command .wr a d
  | chipinfo a d => exact step_withFetchWord_command .chipinfo a d
  | frameRd a p => exact step_withFetchWord_frame ⟨.read, a, p⟩
  | frameWr a p => exact step_withFetchWord_frame ⟨.write, a, p⟩

/-! ### Codes (R22, R88, R181) -/

/-- No two phases have one code (R22). -/
theorem phase_code_inj {p q : Phase} : p.code = q.code ↔ p = q := by
  cases p <;> cases q <;> decide

/-- Settles O58: the codes of the phases are distinct; an outcome's status and a command's operation are what is written. -/
theorem codesAndReadyAreTheTables : Obligations.CodesAndReadyAreTheTables := by
  refine ⟨fun s => ⟨phase_code_inj (q := .idle), phase_code_inj (q := .x1), phase_code_inj (q := .x2),
    phase_code_inj (q := .resp), ?_⟩, fun _ _ _ => ⟨rfl, rfl, rfl, rfl⟩, fun _ _ _ => ⟨rfl, rfl, rfl⟩⟩
  exact beq_iff_eq.trans (phase_code_inj (q := .idle)).symm

end Sys2Proof.Machine
end
